-- ==== Sys2Proof/Word.lean ====
section
/-!
DEFINITION. The two word types of the machine: the byte, which is the only access width (20_memory.md R40), and
the 16-bit address (20_memory.md R40, 10_state.md R13). Their plain arithmetic is that of `BitVec`: `+` and `-` are
the `+_8`, `-_8`, `+_16`, `-_16` of 00_scope.md R5, modulo 256 and modulo 65536.
-/

namespace Sys2Proof

/-- A byte: the addressable unit and the width of A, X, Y, SP (10_state.md R10; 20_memory.md R40). -/
abbrev Byte := BitVec 8

/-- A 16-bit address, and the program counter (10_state.md R10, R13; 20_memory.md R40). -/
abbrev Addr := BitVec 16

end Sys2Proof
end

