-- ==== Sys2Proof/Machine/Bytes.lean ====
section
/-!
DEFINITION. The byte order and the widenings of 00_scope.md R5: how two bytes make an address, the two halves of an
address, zero extension and sign extension.
-/

namespace Sys2Proof

/-- `a[7:0]`, the low byte of an address (00_scope.md R5). -/
def lo (a : Addr) : Byte := a.extractLsb' 0 8

/-- `a[15:8]`, the high byte of an address, which is its page number (00_scope.md R5 and its glossary). -/
def hi (a : Addr) : Byte := a.extractLsb' 8 8

/-- `h ++ l`: the address whose high byte is `h` and whose low byte is `l` (00_scope.md R5). -/
def join (h l : Byte) : Addr := h ++ l

/-- `zext_16(v)` (00_scope.md R5): also the zero-page address `v` (40_addressing_modes.md R92). -/
def zext (v : Byte) : Addr := v.setWidth 16

/-- `sext_16(v)` (00_scope.md R5): used by branch offsets only (43_arithmetic.md R137 item 3). -/
def sext (v : Byte) : Addr := v.signExtend 16

end Sys2Proof
end

