-- ==== Sys2Proof/Config.lean ====
section
/-!
DEFINITION. What is fixed for one machine and what the spec leaves open. `Platform` holds the open parameters of
00_scope.md R4 that are plain data (a field of State that no step writes, so a claim about every state is a claim about every
choice of them); the constants without a body are FREE VALUES: no proof can know what they are.
-/

namespace Sys2Proof

/-- `DUMMY_ACCESS_POLICY` (00_scope.md R4, 70_reset_and_hazards.md R275, D12). -/
inductive DummyPolicy where
  /-- Every dummy access of R275 is issued, in order. -/
  | emit
  /-- Dummy accesses are not issued, and one that would fall on an address with side effects is a fault. -/
  | refuseOnDevice
deriving DecidableEq, Repr

/-- What answers at an address of $2000-$FFFF (20_memory.md R45 to R47, R56; D11, D18). -/
inductive RegionKind where
  /-- Plain read and write memory without side effects (the test configuration of D18, PRG-RAM). -/
  | memory
  /-- Read-only memory: a write changes nothing (20_memory.md R56). -/
  | rom
  /-- A device, or nothing: the `Bus` oracle answers reads and absorbs writes; the flag is the oracle's declaration that
  accesses have side effects (D11, D12). -/
  | device (sideEffects : Bool)
deriving DecidableEq, Repr

/-- One record of the platform's map: the addresses `first` to `last`, both included. -/
structure BusRegion where
  first : Nat
  last  : Nat
  kind  : RegionKind
deriving DecidableEq, Repr

/-- One access handed to the `Bus` oracle (20_memory.md R54). The address is the one the device sees, mirrors resolved
(20_memory.md R45). -/
inductive BusEvent where
  | read  (a : Addr)
  | write (a : Addr) (v : Byte)
deriving DecidableEq, Repr

/-- The open parameters of the machine that are plain data (00_scope.md R4; 10_state.md R35: parameters, not state). -/
structure Platform where
  /-- `ADMIT_UNDOCUMENTED` (30_encoding.md R81, D6). -/
  admitUndocumented : Bool
  /-- `DUMMY_ACCESS_POLICY` (70_reset_and_hazards.md R275, D12). -/
  dummyPolicy : DummyPolicy
  /-- What answers where, outside internal RAM; the first record that holds the address counts (D11, D18). -/
  busMap : List BusRegion
deriving DecidableEq, Repr

/-- The platform of `State.reset`. DESIGN CHOICE (log 5, log 7, log 8; unsafe): undocumented bytes admitted, dummy accesses
emitted, the cartridge space $4020-$FFFF plain memory as in the test configuration of D18, $2000-$401F devices. -/
def Config.resetPlatform : Platform where
  admitUndocumented := true
  dummyPolicy := .emit
  busMap := [⟨0x4020, 0xFFFF, .memory⟩]

/-- FREE VALUE: the byte a device (or nothing, "open bus") answers to a read, given the earlier device accesses, newest
first, the cycle and the address (20_memory.md R41, 10_state.md R33, D11, U4, U5; log 6). -/
opaque Config.busRead : List BusEvent → Nat → Addr → Byte

/-- FREE VALUE: the `n`-th unspecified byte (10_state.md R34, D7; log 2). -/
opaque Config.freeByte : Nat → Byte

/-- FREE VALUE: the `n`-th unspecified flag (10_state.md R34, D7; log 2). -/
opaque Config.freeBit : Nat → Bool

end Sys2Proof
end

