-- ==== Sys2Proof/Machine/State.lean ====
section
/-!
DEFINITION. The state of the machine, plain data: everything the spec gives the machine (10_state.md; INVENTORY.md, "State"),
the reasons a step can stop, memory in one canonical form, and the state after reset.
-/

namespace Sys2Proof.Machine

/-- Why a step ends without a next state (00_scope.md R9). None is a behaviour of the chip: each says that the spec gives
the situation no meaning. -/
inductive Fault where
  /-- Raised by the 49 opcode bytes the source lists nowhere, at program counter `pc` (30_encoding.md R82). Safe: nothing can be
  proved of a run that reaches one. -/
  | unlistedOpcode (op : Byte) (pc : Addr)
  /-- Raised by the 56 undocumented opcode bytes when the platform does not admit them (30_encoding.md R81). Safe. -/
  | undocumentedNotAdmitted (op : Byte) (pc : Addr)
  /-- Raised under `refuseOnDevice` by an instruction or sequence whose bus sequence has a dummy access at the address `a`,
  which the platform declares to have side effects (70_reset_and_hazards.md R275). Safe. -/
  | deviceDummyAccess (a : Addr)
deriving DecidableEq, Repr

/-- Why the model has no meaning for an instruction. -/
inductive Refusal where
  /-- Raised by an arm of `exec` for an instruction that has no meaning yet; no arm does. Safe. -/
  | notModelled (mnemonic : String)
deriving DecidableEq, Repr

/-- The six stored flags (10_state.md R15, D2). Bits 5 and 4 of P are not state (R18, R19). -/
structure Flags where
  /-- Negative, bit 7 (R16). -/
  n : Bool
  /-- Overflow, bit 6 (R17). -/
  v : Bool
  /-- Decimal mode, bit 3: stored and without effect (R20). -/
  d : Bool
  /-- Interrupt disable, bit 2 (R21). -/
  i : Bool
  /-- Zero, bit 1 (R22). -/
  z : Bool
  /-- Carry, bit 0 (R24). -/
  c : Bool
deriving DecidableEq, Repr

/-- The levels of the three interrupt inputs (10_state.md R30; 60_exceptions.md R223 to R225); `true` is active. -/
structure Lines where
  reset : Bool
  nmi   : Bool
  irq   : Bool
deriving DecidableEq, Repr

/-- The result of the interrupt poll (10_state.md R31). -/
inductive PollResult where
  | none | nmi | irq
deriving DecidableEq, Repr

/-- Memory: the listed bytes, keyed by the physical address of their cell. Canonical form: `Memory.wf`. -/
abbrev Memory := List Host.Cell

/-- What an unlisted byte reads as: DESIGN CHOICE, $00 (log 3; unsafe): the spec leaves RAM at power-on unspecified
(10_state.md R34, D7). -/
def Memory.unlisted : Byte := 0x00

/-- The canonical form: addresses strictly rising, and no entry equal to what an unlisted byte reads as. -/
def Memory.wf : Memory → Bool
  | [] => true
  | [c] => c.2 != Memory.unlisted
  | c :: d :: rest => c.2 != Memory.unlisted && decide (c.1 < d.1) && Memory.wf (d :: rest)

/-- The state of the machine. -/
structure State where
  /-- Accumulator A (10_state.md R11). -/
  a : Byte
  /-- Index register X (R12). -/
  x : Byte
  /-- Index register Y (R12). -/
  y : Byte
  /-- Stack pointer SP: the low byte of the stack address (R14). -/
  sp : Byte
  /-- Program counter: between instructions, the address of the next opcode byte (R13). -/
  pc : Addr
  /-- The stored flags of P (R15). -/
  p : Flags
  /-- The bytes of RAM and of the bus regions that are plain memory (20_memory.md R44, R47; D18). -/
  mem : Memory
  /-- The interrupt inputs as last sampled (R30). -/
  lines : Lines
  /-- The interrupt inputs of the coming steps; when it is empty the levels stay as they are (D14; log 9). -/
  inputs : List Lines
  /-- The NMI latch (R30; 60_exceptions.md R224). -/
  nmiPending : Bool
  /-- The poll result, consumed by the next step (R31). -/
  takeInt : PollResult
  /-- CPU cycles since reset (R32). -/
  cycle : Nat
  /-- The length of an OAM DMA stall that was triggered and is not yet served, 0 if none (70_reset_and_hazards.md R272). -/
  dmaStall : Nat
  /-- The model's own: the accesses handed to the Bus oracle, newest first (20_memory.md R54; log 6). -/
  busLog : List BusEvent
  /-- The model's own: how many times free register values were drawn (R34, D7; log 2). -/
  freeCount : Nat
  /-- The platform's parameters; no step writes them (R35). -/
  cfg : Platform
deriving DecidableEq, Repr

/-- The machine right after reset (10_state.md R34): D = 0, I = 1, no NMI pending, no poll result, the cycle counter at 0, and
PC = Read16($FFFC), which is $0000 over a memory that lists nothing (log 4). PRESUMED (log 1; unsafe): A = X = Y = $00, SP = $FD,
N = V = Z = C = 0, the family's power-on values, which the spec records but leaves unspecified. -/
def State.reset : State where
  a := 0x00
  x := 0x00
  y := 0x00
  sp := 0xFD
  pc := 0x0000
  p := { n := false, v := false, d := false, i := true, z := false, c := false }
  mem := []
  lines := { reset := false, nmi := false, irq := false }
  inputs := []
  nmiPending := false
  takeInt := .none
  cycle := 0
  dmaStall := 0
  busLog := []
  freeCount := 0
  cfg := Config.resetPlatform

/-- The outcome of an instruction or of a step. -/
abbrev Result := Host.Outcome State Fault Refusal

end Sys2Proof.Machine
end

