-- ==== Sys2Proof/Machine/Flags.lean ====
section
/-!
DEFINITION. Every flag computation of the spec: N and Z of a result, the status byte and its inverse, the binary adder, the
compare, the bit test, and the one-bit shifts and rotates.
-/

namespace Sys2Proof.Machine

/-- `SetNZ(v)` (10_state.md R23): N is bit 7 of the 8-bit value, Z says that it is zero. -/
def setNZ (v : Byte) (s : State) : State :=
  { s with p := { s.p with n := v.getLsbD 7, z := v == 0 } }

/-- Write C (10_state.md R24). -/
def setC (c : Bool) (s : State) : State := { s with p := { s.p with c := c } }

/-- Write V (10_state.md R17). -/
def setV (v : Bool) (s : State) : State := { s with p := { s.p with v := v } }

/-- Write I (10_state.md R21). -/
def setI (i : Bool) (s : State) : State := { s with p := { s.p with i := i } }

/-- Write D (10_state.md R20). -/
def setD (d : Bool) (s : State) : State := { s with p := { s.p with d := d } }

/-- Write A and set N and Z from it. -/
def loadA (v : Byte) (s : State) : State := setNZ v { s with a := v }

/-- Write X and set N and Z from it. -/
def loadX (v : Byte) (s : State) : State := setNZ v { s with x := v }

/-- Write Y and set N and Z from it. -/
def loadY (v : Byte) (s : State) : State := setNZ v { s with y := v }

/-- `StatusByte(b)` (10_state.md R27): N V 1 b D I Z C, bit 7 first. Bit 5 is always 1 (R18); bit 4 is the B of R19. -/
def statusByte (b : Bool) (p : Flags) : Byte :=
  BitVec.ofBool p.n ++ BitVec.ofBool p.v ++ BitVec.ofBool true ++ BitVec.ofBool b ++
    BitVec.ofBool p.d ++ BitVec.ofBool p.i ++ BitVec.ofBool p.z ++ BitVec.ofBool p.c

/-- The flags `SetStatus(v)` loads (10_state.md R28); bits 5 and 4 of the byte are dropped. -/
def flagsOfByte (v : Byte) : Flags where
  n := v.getLsbD 7
  v := v.getLsbD 6
  d := v.getLsbD 3
  i := v.getLsbD 2
  z := v.getLsbD 1
  c := v.getLsbD 0

/-- `SetStatus(v)` (10_state.md R28). -/
def setStatus (v : Byte) (s : State) : State := { s with p := flagsOfByte v }

/-- `AddWithCarry(m)` (43_arithmetic.md R135): the binary sum of A, `m` and C, whatever D holds. -/
def addWithCarry (m : Byte) (s : State) : State :=
  let t := s.a.toNat + m.toNat + s.p.c.toNat
  let r := BitVec.ofNat 8 t
  loadA r (setC (decide (256 ≤ t)) (setV ((s.a ^^^ r) &&& (m ^^^ r) &&& 0x80 != 0) s))

/-- `Compare(reg, m)` (47_compare_bittest.md R160): the flags of `reg - m` without borrow in; nothing else is written. -/
def compare (reg m : Byte) (s : State) : State :=
  setNZ (reg - m) (setC (decide (m.toNat ≤ reg.toNat)) s)

/-- The flags of BIT (47_compare_bittest.md R163): Z from `A & m`, N and V from the operand byte itself. -/
def bitTest (m : Byte) (s : State) : State :=
  { s with p := { s.p with z := s.a &&& m == 0, n := m.getLsbD 7, v := m.getLsbD 6 } }

/-- The result of a shift left by one bit, a 0 shifted in (46_shift_rotate.md R155). -/
def shiftLeft (v : Byte) : Byte := v <<< 1

/-- The result of a logical shift right by one bit, a 0 shifted in (46_shift_rotate.md R156). -/
def shiftRight (v : Byte) : Byte := v >>> 1

/-- The result of a rotate left by one bit, the old carry shifted in at bit 0 (46_shift_rotate.md R157). -/
def rotateLeft (c : Bool) (v : Byte) : Byte := (v <<< 1) ||| (BitVec.ofBool c).setWidth 8

/-- The result of a rotate right by one bit, the old carry shifted in at bit 7 (46_shift_rotate.md R158). -/
def rotateRight (c : Bool) (v : Byte) : Byte := (v >>> 1) ||| ((BitVec.ofBool c).setWidth 8 <<< 7)

end Sys2Proof.Machine
end

