-- ==== Sys2Proof/Syntax.lean ====
section
/-!
DEFINITION. The instructions: one constructor for each of the 256 rows of spec/opcode_table.json (30_encoding.md R74 to
R82), with the operand bytes of its format (R71): none for F1, one byte for F2, an address (low byte first in memory, R73)
for F3. `Instr.mnemonic`, `Instr.operand` and `Instr.opcode` give the row's columns. The opcode byte has no fields (R72).
-/

namespace Sys2Proof

/-- The 68 mnemonics of the opcode map (30_encoding.md R76, R78) and the table's name for the bytes in no table (R82). -/
inductive Mnemonic where
  | lda | ldx | ldy | sta | stx | sty | tax | tay | tsx | txa
  | txs | tya | pha | php | pla | plp | adc | sbc | inc | inx
  | iny | dec | dex | dey | and | ora | eor | asl | lsr | rol
  | ror | cmp | cpx | cpy | bit | bpl | bmi | bvc | bvs | bcc
  | bcs | bne | beq | jmp | jsr | rts | rti | clc | sec | cli
  | sei | clv | cld | sed | brk | nop | anc | alr | arr | axs
  | sax | lax | dcp | isc | rla | rra | slo | sre | unlisted
deriving DecidableEq, Repr

/-- The three classes of opcode bytes (30_encoding.md R74). -/
inductive Status where
  | official | undocumented | unlisted
deriving DecidableEq, Repr

/-- The nine addressing modes that name a data byte, each with its operand bytes (40_addressing_modes.md R91 to R97, R99,
R100). Absolute is also the mode of JMP $4C and JSR, which use the address only (R95). -/
inductive MemOperand where
  /-- Immediate `#$BB` (R91). -/
  | imm (b : Byte)
  /-- Zero Page `$LL` (R92). -/
  | zp (b : Byte)
  /-- Zero Page,X `$LL,X` (R93). -/
  | zpX (b : Byte)
  /-- Zero Page,Y `$LL,Y` (R94). -/
  | zpY (b : Byte)
  /-- Absolute (R95). -/
  | abs (a : Addr)
  /-- Absolute,X (R96). -/
  | absX (a : Addr)
  /-- Absolute,Y (R97). -/
  | absY (a : Addr)
  /-- Indexed Indirect `($LL,X)` (R99). -/
  | indX (b : Byte)
  /-- Indirect Indexed `($LL),Y` (R100). -/
  | indY (b : Byte)
deriving DecidableEq, Repr

/-- The thirteen addressing modes (40_addressing_modes.md R91 to R103): the nine of `MemOperand` and the four others. -/
inductive Operand where
  /-- Implied: the instruction names its operands itself (R103). -/
  | implied
  /-- Accumulator: operand and destination are A (R102). -/
  | accumulator
  /-- A mode that names a data byte (R91 to R97, R99, R100). -/
  | memory (m : MemOperand)
  /-- Indirect, of JMP $6C only; `ptr` is the pointer's address (R98). -/
  | indirect (ptr : Addr)
  /-- Relative, of the branches only; the signed offset byte (R101). -/
  | relative (offset : Byte)
deriving DecidableEq, Repr

/-- An instruction with its operand bytes: one constructor for each row of spec/opcode_table.json, the listed
bytes in the table's order and then the unlisted ones (Lean's compiler numbers only so many constructors with fields). The name is the mnemonic and the mode; ANC's two bytes (R79) and the unlisted bytes (R82) carry the opcode in hexadecimal. -/
inductive Instr where
  | brk
  | oraIndX (b : Byte)
  | sloIndX (b : Byte)
  | oraZp (b : Byte)
  | aslZp (b : Byte)
  | sloZp (b : Byte)
  | php
  | oraImm (b : Byte)
  | aslAcc
  | ancImm0B (b : Byte)
  | oraAbs (a : Addr)
  | aslAbs (a : Addr)
  | sloAbs (a : Addr)
  | bpl (b : Byte)
  | oraIndY (b : Byte)
  | sloIndY (b : Byte)
  | oraZpX (b : Byte)
  | aslZpX (b : Byte)
  | sloZpX (b : Byte)
  | clc
  | oraAbsY (a : Addr)
  | sloAbsY (a : Addr)
  | oraAbsX (a : Addr)
  | aslAbsX (a : Addr)
  | sloAbsX (a : Addr)
  | jsr (a : Addr)
  | andIndX (b : Byte)
  | rlaIndX (b : Byte)
  | bitZp (b : Byte)
  | andZp (b : Byte)
  | rolZp (b : Byte)
  | rlaZp (b : Byte)
  | plp
  | andImm (b : Byte)
  | rolAcc
  | ancImm2B (b : Byte)
  | bitAbs (a : Addr)
  | andAbs (a : Addr)
  | rolAbs (a : Addr)
  | rlaAbs (a : Addr)
  | bmi (b : Byte)
  | andIndY (b : Byte)
  | rlaIndY (b : Byte)
  | andZpX (b : Byte)
  | rolZpX (b : Byte)
  | rlaZpX (b : Byte)
  | sec
  | andAbsY (a : Addr)
  | rlaAbsY (a : Addr)
  | andAbsX (a : Addr)
  | rolAbsX (a : Addr)
  | rlaAbsX (a : Addr)
  | rti
  | eorIndX (b : Byte)
  | sreIndX (b : Byte)
  | eorZp (b : Byte)
  | lsrZp (b : Byte)
  | sreZp (b : Byte)
  | pha
  | eorImm (b : Byte)
  | lsrAcc
  | alrImm (b : Byte)
  | jmpAbs (a : Addr)
  | eorAbs (a : Addr)
  | lsrAbs (a : Addr)
  | sreAbs (a : Addr)
  | bvc (b : Byte)
  | eorIndY (b : Byte)
  | sreIndY (b : Byte)
  | eorZpX (b : Byte)
  | lsrZpX (b : Byte)
  | sreZpX (b : Byte)
  | cli
  | eorAbsY (a : Addr)
  | sreAbsY (a : Addr)
  | eorAbsX (a : Addr)
  | lsrAbsX (a : Addr)
  | sreAbsX (a : Addr)
  | rts
  | adcIndX (b : Byte)
  | rraIndX (b : Byte)
  | adcZp (b : Byte)
  | rorZp (b : Byte)
  | rraZp (b : Byte)
  | pla
  | adcImm (b : Byte)
  | rorAcc
  | arrImm (b : Byte)
  | jmpInd (a : Addr)
  | adcAbs (a : Addr)
  | rorAbs (a : Addr)
  | rraAbs (a : Addr)
  | bvs (b : Byte)
  | adcIndY (b : Byte)
  | rraIndY (b : Byte)
  | adcZpX (b : Byte)
  | rorZpX (b : Byte)
  | rraZpX (b : Byte)
  | sei
  | adcAbsY (a : Addr)
  | rraAbsY (a : Addr)
  | adcAbsX (a : Addr)
  | rorAbsX (a : Addr)
  | rraAbsX (a : Addr)
  | staIndX (b : Byte)
  | saxIndX (b : Byte)
  | styZp (b : Byte)
  | staZp (b : Byte)
  | stxZp (b : Byte)
  | saxZp (b : Byte)
  | dey
  | txa
  | styAbs (a : Addr)
  | staAbs (a : Addr)
  | stxAbs (a : Addr)
  | saxAbs (a : Addr)
  | bcc (b : Byte)
  | staIndY (b : Byte)
  | styZpX (b : Byte)
  | staZpX (b : Byte)
  | stxZpY (b : Byte)
  | saxZpY (b : Byte)
  | tya
  | staAbsY (a : Addr)
  | txs
  | staAbsX (a : Addr)
  | ldyImm (b : Byte)
  | ldaIndX (b : Byte)
  | ldxImm (b : Byte)
  | laxIndX (b : Byte)
  | ldyZp (b : Byte)
  | ldaZp (b : Byte)
  | ldxZp (b : Byte)
  | laxZp (b : Byte)
  | tay
  | ldaImm (b : Byte)
  | tax
  | ldyAbs (a : Addr)
  | ldaAbs (a : Addr)
  | ldxAbs (a : Addr)
  | laxAbs (a : Addr)
  | bcs (b : Byte)
  | ldaIndY (b : Byte)
  | laxIndY (b : Byte)
  | ldyZpX (b : Byte)
  | ldaZpX (b : Byte)
  | ldxZpY (b : Byte)
  | laxZpY (b : Byte)
  | clv
  | ldaAbsY (a : Addr)
  | tsx
  | ldyAbsX (a : Addr)
  | ldaAbsX (a : Addr)
  | ldxAbsY (a : Addr)
  | cpyImm (b : Byte)
  | cmpIndX (b : Byte)
  | dcpIndX (b : Byte)
  | cpyZp (b : Byte)
  | cmpZp (b : Byte)
  | decZp (b : Byte)
  | dcpZp (b : Byte)
  | iny
  | cmpImm (b : Byte)
  | dex
  | axsImm (b : Byte)
  | cpyAbs (a : Addr)
  | cmpAbs (a : Addr)
  | decAbs (a : Addr)
  | dcpAbs (a : Addr)
  | bne (b : Byte)
  | cmpIndY (b : Byte)
  | dcpIndY (b : Byte)
  | cmpZpX (b : Byte)
  | decZpX (b : Byte)
  | dcpZpX (b : Byte)
  | cld
  | cmpAbsY (a : Addr)
  | dcpAbsY (a : Addr)
  | cmpAbsX (a : Addr)
  | decAbsX (a : Addr)
  | dcpAbsX (a : Addr)
  | cpxImm (b : Byte)
  | sbcIndX (b : Byte)
  | iscIndX (b : Byte)
  | cpxZp (b : Byte)
  | sbcZp (b : Byte)
  | incZp (b : Byte)
  | iscZp (b : Byte)
  | inx
  | sbcImm (b : Byte)
  | nop
  | cpxAbs (a : Addr)
  | sbcAbs (a : Addr)
  | incAbs (a : Addr)
  | iscAbs (a : Addr)
  | beq (b : Byte)
  | sbcIndY (b : Byte)
  | iscIndY (b : Byte)
  | sbcZpX (b : Byte)
  | incZpX (b : Byte)
  | iscZpX (b : Byte)
  | sed
  | sbcAbsY (a : Addr)
  | iscAbsY (a : Addr)
  | sbcAbsX (a : Addr)
  | incAbsX (a : Addr)
  | iscAbsX (a : Addr)
  | unlisted02
  | unlisted04
  | unlisted0C
  | unlisted12
  | unlisted14
  | unlisted1A
  | unlisted1C
  | unlisted22
  | unlisted32
  | unlisted34
  | unlisted3A
  | unlisted3C
  | unlisted42
  | unlisted44
  | unlisted52
  | unlisted54
  | unlisted5A
  | unlisted5C
  | unlisted62
  | unlisted64
  | unlisted72
  | unlisted74
  | unlisted7A
  | unlisted7C
  | unlisted80
  | unlisted82
  | unlisted89
  | unlisted8B
  | unlisted92
  | unlisted93
  | unlisted9B
  | unlisted9C
  | unlisted9E
  | unlisted9F
  | unlistedAB
  | unlistedB2
  | unlistedBB
  | unlistedBF
  | unlistedC2
  | unlistedD2
  | unlistedD4
  | unlistedDA
  | unlistedDC
  | unlistedE2
  | unlistedEB
  | unlistedF2
  | unlistedF4
  | unlistedFA
  | unlistedFC
deriving DecidableEq, Repr

/-- The opcode byte of the row: its `match` column (30_encoding.md R70, R75). -/
def Instr.opcode : Instr → Byte
  | .brk => 0x00
  | .oraIndX _ => 0x01
  | .unlisted02 => 0x02
  | .sloIndX _ => 0x03
  | .unlisted04 => 0x04
  | .oraZp _ => 0x05
  | .aslZp _ => 0x06
  | .sloZp _ => 0x07
  | .php => 0x08
  | .oraImm _ => 0x09
  | .aslAcc => 0x0A
  | .ancImm0B _ => 0x0B
  | .unlisted0C => 0x0C
  | .oraAbs _ => 0x0D
  | .aslAbs _ => 0x0E
  | .sloAbs _ => 0x0F
  | .bpl _ => 0x10
  | .oraIndY _ => 0x11
  | .unlisted12 => 0x12
  | .sloIndY _ => 0x13
  | .unlisted14 => 0x14
  | .oraZpX _ => 0x15
  | .aslZpX _ => 0x16
  | .sloZpX _ => 0x17
  | .clc => 0x18
  | .oraAbsY _ => 0x19
  | .unlisted1A => 0x1A
  | .sloAbsY _ => 0x1B
  | .unlisted1C => 0x1C
  | .oraAbsX _ => 0x1D
  | .aslAbsX _ => 0x1E
  | .sloAbsX _ => 0x1F
  | .jsr _ => 0x20
  | .andIndX _ => 0x21
  | .unlisted22 => 0x22
  | .rlaIndX _ => 0x23
  | .bitZp _ => 0x24
  | .andZp _ => 0x25
  | .rolZp _ => 0x26
  | .rlaZp _ => 0x27
  | .plp => 0x28
  | .andImm _ => 0x29
  | .rolAcc => 0x2A
  | .ancImm2B _ => 0x2B
  | .bitAbs _ => 0x2C
  | .andAbs _ => 0x2D
  | .rolAbs _ => 0x2E
  | .rlaAbs _ => 0x2F
  | .bmi _ => 0x30
  | .andIndY _ => 0x31
  | .unlisted32 => 0x32
  | .rlaIndY _ => 0x33
  | .unlisted34 => 0x34
  | .andZpX _ => 0x35
  | .rolZpX _ => 0x36
  | .rlaZpX _ => 0x37
  | .sec => 0x38
  | .andAbsY _ => 0x39
  | .unlisted3A => 0x3A
  | .rlaAbsY _ => 0x3B
  | .unlisted3C => 0x3C
  | .andAbsX _ => 0x3D
  | .rolAbsX _ => 0x3E
  | .rlaAbsX _ => 0x3F
  | .rti => 0x40
  | .eorIndX _ => 0x41
  | .unlisted42 => 0x42
  | .sreIndX _ => 0x43
  | .unlisted44 => 0x44
  | .eorZp _ => 0x45
  | .lsrZp _ => 0x46
  | .sreZp _ => 0x47
  | .pha => 0x48
  | .eorImm _ => 0x49
  | .lsrAcc => 0x4A
  | .alrImm _ => 0x4B
  | .jmpAbs _ => 0x4C
  | .eorAbs _ => 0x4D
  | .lsrAbs _ => 0x4E
  | .sreAbs _ => 0x4F
  | .bvc _ => 0x50
  | .eorIndY _ => 0x51
  | .unlisted52 => 0x52
  | .sreIndY _ => 0x53
  | .unlisted54 => 0x54
  | .eorZpX _ => 0x55
  | .lsrZpX _ => 0x56
  | .sreZpX _ => 0x57
  | .cli => 0x58
  | .eorAbsY _ => 0x59
  | .unlisted5A => 0x5A
  | .sreAbsY _ => 0x5B
  | .unlisted5C => 0x5C
  | .eorAbsX _ => 0x5D
  | .lsrAbsX _ => 0x5E
  | .sreAbsX _ => 0x5F
  | .rts => 0x60
  | .adcIndX _ => 0x61
  | .unlisted62 => 0x62
  | .rraIndX _ => 0x63
  | .unlisted64 => 0x64
  | .adcZp _ => 0x65
  | .rorZp _ => 0x66
  | .rraZp _ => 0x67
  | .pla => 0x68
  | .adcImm _ => 0x69
  | .rorAcc => 0x6A
  | .arrImm _ => 0x6B
  | .jmpInd _ => 0x6C
  | .adcAbs _ => 0x6D
  | .rorAbs _ => 0x6E
  | .rraAbs _ => 0x6F
  | .bvs _ => 0x70
  | .adcIndY _ => 0x71
  | .unlisted72 => 0x72
  | .rraIndY _ => 0x73
  | .unlisted74 => 0x74
  | .adcZpX _ => 0x75
  | .rorZpX _ => 0x76
  | .rraZpX _ => 0x77
  | .sei => 0x78
  | .adcAbsY _ => 0x79
  | .unlisted7A => 0x7A
  | .rraAbsY _ => 0x7B
  | .unlisted7C => 0x7C
  | .adcAbsX _ => 0x7D
  | .rorAbsX _ => 0x7E
  | .rraAbsX _ => 0x7F
  | .unlisted80 => 0x80
  | .staIndX _ => 0x81
  | .unlisted82 => 0x82
  | .saxIndX _ => 0x83
  | .styZp _ => 0x84
  | .staZp _ => 0x85
  | .stxZp _ => 0x86
  | .saxZp _ => 0x87
  | .dey => 0x88
  | .unlisted89 => 0x89
  | .txa => 0x8A
  | .unlisted8B => 0x8B
  | .styAbs _ => 0x8C
  | .staAbs _ => 0x8D
  | .stxAbs _ => 0x8E
  | .saxAbs _ => 0x8F
  | .bcc _ => 0x90
  | .staIndY _ => 0x91
  | .unlisted92 => 0x92
  | .unlisted93 => 0x93
  | .styZpX _ => 0x94
  | .staZpX _ => 0x95
  | .stxZpY _ => 0x96
  | .saxZpY _ => 0x97
  | .tya => 0x98
  | .staAbsY _ => 0x99
  | .txs => 0x9A
  | .unlisted9B => 0x9B
  | .unlisted9C => 0x9C
  | .staAbsX _ => 0x9D
  | .unlisted9E => 0x9E
  | .unlisted9F => 0x9F
  | .ldyImm _ => 0xA0
  | .ldaIndX _ => 0xA1
  | .ldxImm _ => 0xA2
  | .laxIndX _ => 0xA3
  | .ldyZp _ => 0xA4
  | .ldaZp _ => 0xA5
  | .ldxZp _ => 0xA6
  | .laxZp _ => 0xA7
  | .tay => 0xA8
  | .ldaImm _ => 0xA9
  | .tax => 0xAA
  | .unlistedAB => 0xAB
  | .ldyAbs _ => 0xAC
  | .ldaAbs _ => 0xAD
  | .ldxAbs _ => 0xAE
  | .laxAbs _ => 0xAF
  | .bcs _ => 0xB0
  | .ldaIndY _ => 0xB1
  | .unlistedB2 => 0xB2
  | .laxIndY _ => 0xB3
  | .ldyZpX _ => 0xB4
  | .ldaZpX _ => 0xB5
  | .ldxZpY _ => 0xB6
  | .laxZpY _ => 0xB7
  | .clv => 0xB8
  | .ldaAbsY _ => 0xB9
  | .tsx => 0xBA
  | .unlistedBB => 0xBB
  | .ldyAbsX _ => 0xBC
  | .ldaAbsX _ => 0xBD
  | .ldxAbsY _ => 0xBE
  | .unlistedBF => 0xBF
  | .cpyImm _ => 0xC0
  | .cmpIndX _ => 0xC1
  | .unlistedC2 => 0xC2
  | .dcpIndX _ => 0xC3
  | .cpyZp _ => 0xC4
  | .cmpZp _ => 0xC5
  | .decZp _ => 0xC6
  | .dcpZp _ => 0xC7
  | .iny => 0xC8
  | .cmpImm _ => 0xC9
  | .dex => 0xCA
  | .axsImm _ => 0xCB
  | .cpyAbs _ => 0xCC
  | .cmpAbs _ => 0xCD
  | .decAbs _ => 0xCE
  | .dcpAbs _ => 0xCF
  | .bne _ => 0xD0
  | .cmpIndY _ => 0xD1
  | .unlistedD2 => 0xD2
  | .dcpIndY _ => 0xD3
  | .unlistedD4 => 0xD4
  | .cmpZpX _ => 0xD5
  | .decZpX _ => 0xD6
  | .dcpZpX _ => 0xD7
  | .cld => 0xD8
  | .cmpAbsY _ => 0xD9
  | .unlistedDA => 0xDA
  | .dcpAbsY _ => 0xDB
  | .unlistedDC => 0xDC
  | .cmpAbsX _ => 0xDD
  | .decAbsX _ => 0xDE
  | .dcpAbsX _ => 0xDF
  | .cpxImm _ => 0xE0
  | .sbcIndX _ => 0xE1
  | .unlistedE2 => 0xE2
  | .iscIndX _ => 0xE3
  | .cpxZp _ => 0xE4
  | .sbcZp _ => 0xE5
  | .incZp _ => 0xE6
  | .iscZp _ => 0xE7
  | .inx => 0xE8
  | .sbcImm _ => 0xE9
  | .nop => 0xEA
  | .unlistedEB => 0xEB
  | .cpxAbs _ => 0xEC
  | .sbcAbs _ => 0xED
  | .incAbs _ => 0xEE
  | .iscAbs _ => 0xEF
  | .beq _ => 0xF0
  | .sbcIndY _ => 0xF1
  | .unlistedF2 => 0xF2
  | .iscIndY _ => 0xF3
  | .unlistedF4 => 0xF4
  | .sbcZpX _ => 0xF5
  | .incZpX _ => 0xF6
  | .iscZpX _ => 0xF7
  | .sed => 0xF8
  | .sbcAbsY _ => 0xF9
  | .unlistedFA => 0xFA
  | .iscAbsY _ => 0xFB
  | .unlistedFC => 0xFC
  | .sbcAbsX _ => 0xFD
  | .incAbsX _ => 0xFE
  | .iscAbsX _ => 0xFF

/-- The mnemonic of the row (30_encoding.md R75, R76, R78, R82). -/
def Instr.mnemonic : Instr → Mnemonic
  | .brk => .brk
  | .oraIndX _ => .ora
  | .unlisted02 => .unlisted
  | .sloIndX _ => .slo
  | .unlisted04 => .unlisted
  | .oraZp _ => .ora
  | .aslZp _ => .asl
  | .sloZp _ => .slo
  | .php => .php
  | .oraImm _ => .ora
  | .aslAcc => .asl
  | .ancImm0B _ => .anc
  | .unlisted0C => .unlisted
  | .oraAbs _ => .ora
  | .aslAbs _ => .asl
  | .sloAbs _ => .slo
  | .bpl _ => .bpl
  | .oraIndY _ => .ora
  | .unlisted12 => .unlisted
  | .sloIndY _ => .slo
  | .unlisted14 => .unlisted
  | .oraZpX _ => .ora
  | .aslZpX _ => .asl
  | .sloZpX _ => .slo
  | .clc => .clc
  | .oraAbsY _ => .ora
  | .unlisted1A => .unlisted
  | .sloAbsY _ => .slo
  | .unlisted1C => .unlisted
  | .oraAbsX _ => .ora
  | .aslAbsX _ => .asl
  | .sloAbsX _ => .slo
  | .jsr _ => .jsr
  | .andIndX _ => .and
  | .unlisted22 => .unlisted
  | .rlaIndX _ => .rla
  | .bitZp _ => .bit
  | .andZp _ => .and
  | .rolZp _ => .rol
  | .rlaZp _ => .rla
  | .plp => .plp
  | .andImm _ => .and
  | .rolAcc => .rol
  | .ancImm2B _ => .anc
  | .bitAbs _ => .bit
  | .andAbs _ => .and
  | .rolAbs _ => .rol
  | .rlaAbs _ => .rla
  | .bmi _ => .bmi
  | .andIndY _ => .and
  | .unlisted32 => .unlisted
  | .rlaIndY _ => .rla
  | .unlisted34 => .unlisted
  | .andZpX _ => .and
  | .rolZpX _ => .rol
  | .rlaZpX _ => .rla
  | .sec => .sec
  | .andAbsY _ => .and
  | .unlisted3A => .unlisted
  | .rlaAbsY _ => .rla
  | .unlisted3C => .unlisted
  | .andAbsX _ => .and
  | .rolAbsX _ => .rol
  | .rlaAbsX _ => .rla
  | .rti => .rti
  | .eorIndX _ => .eor
  | .unlisted42 => .unlisted
  | .sreIndX _ => .sre
  | .unlisted44 => .unlisted
  | .eorZp _ => .eor
  | .lsrZp _ => .lsr
  | .sreZp _ => .sre
  | .pha => .pha
  | .eorImm _ => .eor
  | .lsrAcc => .lsr
  | .alrImm _ => .alr
  | .jmpAbs _ => .jmp
  | .eorAbs _ => .eor
  | .lsrAbs _ => .lsr
  | .sreAbs _ => .sre
  | .bvc _ => .bvc
  | .eorIndY _ => .eor
  | .unlisted52 => .unlisted
  | .sreIndY _ => .sre
  | .unlisted54 => .unlisted
  | .eorZpX _ => .eor
  | .lsrZpX _ => .lsr
  | .sreZpX _ => .sre
  | .cli => .cli
  | .eorAbsY _ => .eor
  | .unlisted5A => .unlisted
  | .sreAbsY _ => .sre
  | .unlisted5C => .unlisted
  | .eorAbsX _ => .eor
  | .lsrAbsX _ => .lsr
  | .sreAbsX _ => .sre
  | .rts => .rts
  | .adcIndX _ => .adc
  | .unlisted62 => .unlisted
  | .rraIndX _ => .rra
  | .unlisted64 => .unlisted
  | .adcZp _ => .adc
  | .rorZp _ => .ror
  | .rraZp _ => .rra
  | .pla => .pla
  | .adcImm _ => .adc
  | .rorAcc => .ror
  | .arrImm _ => .arr
  | .jmpInd _ => .jmp
  | .adcAbs _ => .adc
  | .rorAbs _ => .ror
  | .rraAbs _ => .rra
  | .bvs _ => .bvs
  | .adcIndY _ => .adc
  | .unlisted72 => .unlisted
  | .rraIndY _ => .rra
  | .unlisted74 => .unlisted
  | .adcZpX _ => .adc
  | .rorZpX _ => .ror
  | .rraZpX _ => .rra
  | .sei => .sei
  | .adcAbsY _ => .adc
  | .unlisted7A => .unlisted
  | .rraAbsY _ => .rra
  | .unlisted7C => .unlisted
  | .adcAbsX _ => .adc
  | .rorAbsX _ => .ror
  | .rraAbsX _ => .rra
  | .unlisted80 => .unlisted
  | .staIndX _ => .sta
  | .unlisted82 => .unlisted
  | .saxIndX _ => .sax
  | .styZp _ => .sty
  | .staZp _ => .sta
  | .stxZp _ => .stx
  | .saxZp _ => .sax
  | .dey => .dey
  | .unlisted89 => .unlisted
  | .txa => .txa
  | .unlisted8B => .unlisted
  | .styAbs _ => .sty
  | .staAbs _ => .sta
  | .stxAbs _ => .stx
  | .saxAbs _ => .sax
  | .bcc _ => .bcc
  | .staIndY _ => .sta
  | .unlisted92 => .unlisted
  | .unlisted93 => .unlisted
  | .styZpX _ => .sty
  | .staZpX _ => .sta
  | .stxZpY _ => .stx
  | .saxZpY _ => .sax
  | .tya => .tya
  | .staAbsY _ => .sta
  | .txs => .txs
  | .unlisted9B => .unlisted
  | .unlisted9C => .unlisted
  | .staAbsX _ => .sta
  | .unlisted9E => .unlisted
  | .unlisted9F => .unlisted
  | .ldyImm _ => .ldy
  | .ldaIndX _ => .lda
  | .ldxImm _ => .ldx
  | .laxIndX _ => .lax
  | .ldyZp _ => .ldy
  | .ldaZp _ => .lda
  | .ldxZp _ => .ldx
  | .laxZp _ => .lax
  | .tay => .tay
  | .ldaImm _ => .lda
  | .tax => .tax
  | .unlistedAB => .unlisted
  | .ldyAbs _ => .ldy
  | .ldaAbs _ => .lda
  | .ldxAbs _ => .ldx
  | .laxAbs _ => .lax
  | .bcs _ => .bcs
  | .ldaIndY _ => .lda
  | .unlistedB2 => .unlisted
  | .laxIndY _ => .lax
  | .ldyZpX _ => .ldy
  | .ldaZpX _ => .lda
  | .ldxZpY _ => .ldx
  | .laxZpY _ => .lax
  | .clv => .clv
  | .ldaAbsY _ => .lda
  | .tsx => .tsx
  | .unlistedBB => .unlisted
  | .ldyAbsX _ => .ldy
  | .ldaAbsX _ => .lda
  | .ldxAbsY _ => .ldx
  | .unlistedBF => .unlisted
  | .cpyImm _ => .cpy
  | .cmpIndX _ => .cmp
  | .unlistedC2 => .unlisted
  | .dcpIndX _ => .dcp
  | .cpyZp _ => .cpy
  | .cmpZp _ => .cmp
  | .decZp _ => .dec
  | .dcpZp _ => .dcp
  | .iny => .iny
  | .cmpImm _ => .cmp
  | .dex => .dex
  | .axsImm _ => .axs
  | .cpyAbs _ => .cpy
  | .cmpAbs _ => .cmp
  | .decAbs _ => .dec
  | .dcpAbs _ => .dcp
  | .bne _ => .bne
  | .cmpIndY _ => .cmp
  | .unlistedD2 => .unlisted
  | .dcpIndY _ => .dcp
  | .unlistedD4 => .unlisted
  | .cmpZpX _ => .cmp
  | .decZpX _ => .dec
  | .dcpZpX _ => .dcp
  | .cld => .cld
  | .cmpAbsY _ => .cmp
  | .unlistedDA => .unlisted
  | .dcpAbsY _ => .dcp
  | .unlistedDC => .unlisted
  | .cmpAbsX _ => .cmp
  | .decAbsX _ => .dec
  | .dcpAbsX _ => .dcp
  | .cpxImm _ => .cpx
  | .sbcIndX _ => .sbc
  | .unlistedE2 => .unlisted
  | .iscIndX _ => .isc
  | .cpxZp _ => .cpx
  | .sbcZp _ => .sbc
  | .incZp _ => .inc
  | .iscZp _ => .isc
  | .inx => .inx
  | .sbcImm _ => .sbc
  | .nop => .nop
  | .unlistedEB => .unlisted
  | .cpxAbs _ => .cpx
  | .sbcAbs _ => .sbc
  | .incAbs _ => .inc
  | .iscAbs _ => .isc
  | .beq _ => .beq
  | .sbcIndY _ => .sbc
  | .unlistedF2 => .unlisted
  | .iscIndY _ => .isc
  | .unlistedF4 => .unlisted
  | .sbcZpX _ => .sbc
  | .incZpX _ => .inc
  | .iscZpX _ => .isc
  | .sed => .sed
  | .sbcAbsY _ => .sbc
  | .unlistedFA => .unlisted
  | .iscAbsY _ => .isc
  | .unlistedFC => .unlisted
  | .sbcAbsX _ => .sbc
  | .incAbsX _ => .inc
  | .iscAbsX _ => .isc

/-- The addressing mode of the row with the operand bytes (30_encoding.md R75, R76, R80). An unlisted byte has no mode and no
length (R82); the table's format F1 stands for it. -/
def Instr.operand : Instr → Operand
  | .brk => .implied
  | .oraIndX b => .memory (.indX b)
  | .unlisted02 => .implied
  | .sloIndX b => .memory (.indX b)
  | .unlisted04 => .implied
  | .oraZp b => .memory (.zp b)
  | .aslZp b => .memory (.zp b)
  | .sloZp b => .memory (.zp b)
  | .php => .implied
  | .oraImm b => .memory (.imm b)
  | .aslAcc => .accumulator
  | .ancImm0B b => .memory (.imm b)
  | .unlisted0C => .implied
  | .oraAbs a => .memory (.abs a)
  | .aslAbs a => .memory (.abs a)
  | .sloAbs a => .memory (.abs a)
  | .bpl b => .relative b
  | .oraIndY b => .memory (.indY b)
  | .unlisted12 => .implied
  | .sloIndY b => .memory (.indY b)
  | .unlisted14 => .implied
  | .oraZpX b => .memory (.zpX b)
  | .aslZpX b => .memory (.zpX b)
  | .sloZpX b => .memory (.zpX b)
  | .clc => .implied
  | .oraAbsY a => .memory (.absY a)
  | .unlisted1A => .implied
  | .sloAbsY a => .memory (.absY a)
  | .unlisted1C => .implied
  | .oraAbsX a => .memory (.absX a)
  | .aslAbsX a => .memory (.absX a)
  | .sloAbsX a => .memory (.absX a)
  | .jsr a => .memory (.abs a)
  | .andIndX b => .memory (.indX b)
  | .unlisted22 => .implied
  | .rlaIndX b => .memory (.indX b)
  | .bitZp b => .memory (.zp b)
  | .andZp b => .memory (.zp b)
  | .rolZp b => .memory (.zp b)
  | .rlaZp b => .memory (.zp b)
  | .plp => .implied
  | .andImm b => .memory (.imm b)
  | .rolAcc => .accumulator
  | .ancImm2B b => .memory (.imm b)
  | .bitAbs a => .memory (.abs a)
  | .andAbs a => .memory (.abs a)
  | .rolAbs a => .memory (.abs a)
  | .rlaAbs a => .memory (.abs a)
  | .bmi b => .relative b
  | .andIndY b => .memory (.indY b)
  | .unlisted32 => .implied
  | .rlaIndY b => .memory (.indY b)
  | .unlisted34 => .implied
  | .andZpX b => .memory (.zpX b)
  | .rolZpX b => .memory (.zpX b)
  | .rlaZpX b => .memory (.zpX b)
  | .sec => .implied
  | .andAbsY a => .memory (.absY a)
  | .unlisted3A => .implied
  | .rlaAbsY a => .memory (.absY a)
  | .unlisted3C => .implied
  | .andAbsX a => .memory (.absX a)
  | .rolAbsX a => .memory (.absX a)
  | .rlaAbsX a => .memory (.absX a)
  | .rti => .implied
  | .eorIndX b => .memory (.indX b)
  | .unlisted42 => .implied
  | .sreIndX b => .memory (.indX b)
  | .unlisted44 => .implied
  | .eorZp b => .memory (.zp b)
  | .lsrZp b => .memory (.zp b)
  | .sreZp b => .memory (.zp b)
  | .pha => .implied
  | .eorImm b => .memory (.imm b)
  | .lsrAcc => .accumulator
  | .alrImm b => .memory (.imm b)
  | .jmpAbs a => .memory (.abs a)
  | .eorAbs a => .memory (.abs a)
  | .lsrAbs a => .memory (.abs a)
  | .sreAbs a => .memory (.abs a)
  | .bvc b => .relative b
  | .eorIndY b => .memory (.indY b)
  | .unlisted52 => .implied
  | .sreIndY b => .memory (.indY b)
  | .unlisted54 => .implied
  | .eorZpX b => .memory (.zpX b)
  | .lsrZpX b => .memory (.zpX b)
  | .sreZpX b => .memory (.zpX b)
  | .cli => .implied
  | .eorAbsY a => .memory (.absY a)
  | .unlisted5A => .implied
  | .sreAbsY a => .memory (.absY a)
  | .unlisted5C => .implied
  | .eorAbsX a => .memory (.absX a)
  | .lsrAbsX a => .memory (.absX a)
  | .sreAbsX a => .memory (.absX a)
  | .rts => .implied
  | .adcIndX b => .memory (.indX b)
  | .unlisted62 => .implied
  | .rraIndX b => .memory (.indX b)
  | .unlisted64 => .implied
  | .adcZp b => .memory (.zp b)
  | .rorZp b => .memory (.zp b)
  | .rraZp b => .memory (.zp b)
  | .pla => .implied
  | .adcImm b => .memory (.imm b)
  | .rorAcc => .accumulator
  | .arrImm b => .memory (.imm b)
  | .jmpInd a => .indirect a
  | .adcAbs a => .memory (.abs a)
  | .rorAbs a => .memory (.abs a)
  | .rraAbs a => .memory (.abs a)
  | .bvs b => .relative b
  | .adcIndY b => .memory (.indY b)
  | .unlisted72 => .implied
  | .rraIndY b => .memory (.indY b)
  | .unlisted74 => .implied
  | .adcZpX b => .memory (.zpX b)
  | .rorZpX b => .memory (.zpX b)
  | .rraZpX b => .memory (.zpX b)
  | .sei => .implied
  | .adcAbsY a => .memory (.absY a)
  | .unlisted7A => .implied
  | .rraAbsY a => .memory (.absY a)
  | .unlisted7C => .implied
  | .adcAbsX a => .memory (.absX a)
  | .rorAbsX a => .memory (.absX a)
  | .rraAbsX a => .memory (.absX a)
  | .unlisted80 => .implied
  | .staIndX b => .memory (.indX b)
  | .unlisted82 => .implied
  | .saxIndX b => .memory (.indX b)
  | .styZp b => .memory (.zp b)
  | .staZp b => .memory (.zp b)
  | .stxZp b => .memory (.zp b)
  | .saxZp b => .memory (.zp b)
  | .dey => .implied
  | .unlisted89 => .implied
  | .txa => .implied
  | .unlisted8B => .implied
  | .styAbs a => .memory (.abs a)
  | .staAbs a => .memory (.abs a)
  | .stxAbs a => .memory (.abs a)
  | .saxAbs a => .memory (.abs a)
  | .bcc b => .relative b
  | .staIndY b => .memory (.indY b)
  | .unlisted92 => .implied
  | .unlisted93 => .implied
  | .styZpX b => .memory (.zpX b)
  | .staZpX b => .memory (.zpX b)
  | .stxZpY b => .memory (.zpY b)
  | .saxZpY b => .memory (.zpY b)
  | .tya => .implied
  | .staAbsY a => .memory (.absY a)
  | .txs => .implied
  | .unlisted9B => .implied
  | .unlisted9C => .implied
  | .staAbsX a => .memory (.absX a)
  | .unlisted9E => .implied
  | .unlisted9F => .implied
  | .ldyImm b => .memory (.imm b)
  | .ldaIndX b => .memory (.indX b)
  | .ldxImm b => .memory (.imm b)
  | .laxIndX b => .memory (.indX b)
  | .ldyZp b => .memory (.zp b)
  | .ldaZp b => .memory (.zp b)
  | .ldxZp b => .memory (.zp b)
  | .laxZp b => .memory (.zp b)
  | .tay => .implied
  | .ldaImm b => .memory (.imm b)
  | .tax => .implied
  | .unlistedAB => .implied
  | .ldyAbs a => .memory (.abs a)
  | .ldaAbs a => .memory (.abs a)
  | .ldxAbs a => .memory (.abs a)
  | .laxAbs a => .memory (.abs a)
  | .bcs b => .relative b
  | .ldaIndY b => .memory (.indY b)
  | .unlistedB2 => .implied
  | .laxIndY b => .memory (.indY b)
  | .ldyZpX b => .memory (.zpX b)
  | .ldaZpX b => .memory (.zpX b)
  | .ldxZpY b => .memory (.zpY b)
  | .laxZpY b => .memory (.zpY b)
  | .clv => .implied
  | .ldaAbsY a => .memory (.absY a)
  | .tsx => .implied
  | .unlistedBB => .implied
  | .ldyAbsX a => .memory (.absX a)
  | .ldaAbsX a => .memory (.absX a)
  | .ldxAbsY a => .memory (.absY a)
  | .unlistedBF => .implied
  | .cpyImm b => .memory (.imm b)
  | .cmpIndX b => .memory (.indX b)
  | .unlistedC2 => .implied
  | .dcpIndX b => .memory (.indX b)
  | .cpyZp b => .memory (.zp b)
  | .cmpZp b => .memory (.zp b)
  | .decZp b => .memory (.zp b)
  | .dcpZp b => .memory (.zp b)
  | .iny => .implied
  | .cmpImm b => .memory (.imm b)
  | .dex => .implied
  | .axsImm b => .memory (.imm b)
  | .cpyAbs a => .memory (.abs a)
  | .cmpAbs a => .memory (.abs a)
  | .decAbs a => .memory (.abs a)
  | .dcpAbs a => .memory (.abs a)
  | .bne b => .relative b
  | .cmpIndY b => .memory (.indY b)
  | .unlistedD2 => .implied
  | .dcpIndY b => .memory (.indY b)
  | .unlistedD4 => .implied
  | .cmpZpX b => .memory (.zpX b)
  | .decZpX b => .memory (.zpX b)
  | .dcpZpX b => .memory (.zpX b)
  | .cld => .implied
  | .cmpAbsY a => .memory (.absY a)
  | .unlistedDA => .implied
  | .dcpAbsY a => .memory (.absY a)
  | .unlistedDC => .implied
  | .cmpAbsX a => .memory (.absX a)
  | .decAbsX a => .memory (.absX a)
  | .dcpAbsX a => .memory (.absX a)
  | .cpxImm b => .memory (.imm b)
  | .sbcIndX b => .memory (.indX b)
  | .unlistedE2 => .implied
  | .iscIndX b => .memory (.indX b)
  | .cpxZp b => .memory (.zp b)
  | .sbcZp b => .memory (.zp b)
  | .incZp b => .memory (.zp b)
  | .iscZp b => .memory (.zp b)
  | .inx => .implied
  | .sbcImm b => .memory (.imm b)
  | .nop => .implied
  | .unlistedEB => .implied
  | .cpxAbs a => .memory (.abs a)
  | .sbcAbs a => .memory (.abs a)
  | .incAbs a => .memory (.abs a)
  | .iscAbs a => .memory (.abs a)
  | .beq b => .relative b
  | .sbcIndY b => .memory (.indY b)
  | .unlistedF2 => .implied
  | .iscIndY b => .memory (.indY b)
  | .unlistedF4 => .implied
  | .sbcZpX b => .memory (.zpX b)
  | .incZpX b => .memory (.zpX b)
  | .iscZpX b => .memory (.zpX b)
  | .sed => .implied
  | .sbcAbsY a => .memory (.absY a)
  | .unlistedFA => .implied
  | .iscAbsY a => .memory (.absY a)
  | .unlistedFC => .implied
  | .sbcAbsX a => .memory (.absX a)
  | .incAbsX a => .memory (.absX a)
  | .iscAbsX a => .memory (.absX a)

/-- Which class of 30_encoding.md R74 a mnemonic belongs to: R76, R78 and R82 list them. -/
def Mnemonic.status : Mnemonic → Status
  | .anc | .alr | .arr | .axs | .sax | .lax | .dcp | .isc | .rla | .rra | .slo | .sre => .undocumented
  | .unlisted => .unlisted
  | .lda | .ldx | .ldy | .sta | .stx | .sty | .tax | .tay | .tsx | .txa
  | .txs | .tya | .pha | .php | .pla | .plp | .adc | .sbc | .inc | .inx
  | .iny | .dec | .dex | .dey | .and | .ora | .eor | .asl | .lsr | .rol
  | .ror | .cmp | .cpx | .cpy | .bit | .bpl | .bmi | .bvc | .bvs | .bcc
  | .bcs | .bne | .beq | .jmp | .jsr | .rts | .rti | .clc | .sec | .cli
  | .sei | .clv | .cld | .sed | .brk | .nop => .official

/-- The class of an instruction's opcode byte (30_encoding.md R74). -/
def Instr.status (i : Instr) : Status := i.mnemonic.status

/-- The length in bytes of the modes that name a data byte: the table of 30_encoding.md R70. -/
def MemOperand.length : MemOperand → Nat
  | .imm _ | .zp _ | .zpX _ | .zpY _ | .indX _ | .indY _ => 2
  | .abs _ | .absX _ | .absY _ => 3

/-- The length in bytes of an addressing mode: the table of 30_encoding.md R70. -/
def Operand.length : Operand → Nat
  | .implied | .accumulator => 1
  | .memory m => m.length
  | .indirect _ => 3
  | .relative _ => 2

/-- The length of an instruction is that of its addressing mode (30_encoding.md R70). -/
def Instr.length (i : Instr) : Nat := i.operand.length

end Sys2Proof
end

