-- ==== Sys2Proof/Machine/Ops.lean ====
section
/-!
DEFINITION. The named operations over memory, bus, stack and registers, taking an exception, returning from one, the reset
sequence and the interrupt poll. Every bus access takes one cycle (70_reset_and_hazards.md R275), so the cycle count of a
step is the number of its accesses.
-/

namespace Sys2Proof.Machine

/-! ### Memory as data -/

/-- The byte at a key: the listed one, or what an unlisted byte reads as. -/
def Memory.read : Memory → Nat → Byte
  | [], _ => Memory.unlisted
  | c :: rest, k => if c.1 = k then c.2 else Memory.read rest k

/-- Write a byte at a key, keeping the canonical form: writing what an unlisted byte reads as removes the entry. -/
def Memory.write : Memory → Nat → Byte → Memory
  | [], k, v => if v = Memory.unlisted then [] else [(k, v)]
  | c :: rest, k, v =>
    if k < c.1 then (if v = Memory.unlisted then c :: rest else (k, v) :: c :: rest)
    else if c.1 = k then (if v = Memory.unlisted then rest else (k, v) :: rest)
    else c :: Memory.write rest k v

/-! ### The address map -/

/-- The address with its mirrors resolved: $0000-$1FFF reaches cell `a & $07FF` (20_memory.md R44), $2000-$3FFF reaches PPU
register `a & 7` at `$2000 + (a & 7)` (R45), every other address is itself. -/
def physical (a : Addr) : Addr :=
  if a.toNat < 0x2000 then a &&& 0x07FF
  else if a.toNat < 0x4000 then 0x2000 + (a &&& 0x0007)
  else a

/-- The key in `State.mem` of the byte at an address. -/
def cell (a : Addr) : Nat := (physical a).toNat

/-- What the platform's map says of a key; an address in no record is a device with side effects (log 5). -/
def regionKind : List BusRegion → Nat → RegionKind
  | [], _ => .device true
  | r :: rest, k => if r.first ≤ k ∧ k ≤ r.last then r.kind else regionKind rest k

/-- What answers at an address: internal RAM below $2000 (20_memory.md R44), the platform's map elsewhere (R45 to R47). -/
def kindAt (s : State) (a : Addr) : RegionKind :=
  if a.toNat < 0x2000 then .memory else regionKind s.cfg.busMap (cell a)

/-- Whether the Bus oracle answers at an address. -/
def isDevice (s : State) (a : Addr) : Bool :=
  match kindAt s a with
  | .device _ => true
  | .memory | .rom => false

/-- Whether a write at an address is stored in memory (20_memory.md R42, R56). -/
def isWritable (s : State) (a : Addr) : Bool :=
  match kindAt s a with
  | .memory => true
  | .rom | .device _ => false

/-- Whether the platform declares accesses at an address to have side effects (D11, D12). -/
def hasSideEffects (s : State) (a : Addr) : Bool :=
  match kindAt s a with
  | .device e => e
  | .memory | .rom => false

/-! ### Bus accesses -/

/-- One cycle passes (70_reset_and_hazards.md R275: every cycle is one bus access). -/
def tick (s : State) : State := { s with cycle := s.cycle + 1 }

/-- The byte that memory holds for an address: the model's read of one byte, without a bus access. Outside devices it is what
a read returns. -/
def byteAt (s : State) (a : Addr) : Byte := s.mem.read (cell a)

/-- The byte a read of `a` returns (20_memory.md R41): from memory, or the free value the Bus oracle answers. -/
def readValue (a : Addr) (s : State) : Byte :=
  if isDevice s a then Config.busRead s.busLog s.cycle (physical a) else byteAt s a

/-- The state after a read of `a`: one cycle, and the access is recorded if the oracle answers it (20_memory.md R54). -/
def afterRead (a : Addr) (s : State) : State :=
  { s with
    busLog := if isDevice s a then .read (physical a) :: s.busLog else s.busLog
    cycle := s.cycle + 1 }

/-- `MemRead(a, 1)` (20_memory.md R41). -/
def read (a : Addr) (s : State) : Byte × State := (readValue a s, afterRead a s)

/-- `MemWrite(a, 1, v)` (20_memory.md R42, R44, R56): stored in memory, handed to the oracle, or without effect (ROM). A write
to $4014 triggers the OAM DMA stall, 513 cycles if it happens on an odd cycle and 514 on an even one
(70_reset_and_hazards.md R272, D20; log 12). -/
def write (a : Addr) (v : Byte) (s : State) : State :=
  { s with
    mem := if isWritable s a then s.mem.write (cell a) v else s.mem
    busLog := if isDevice s a then .write (physical a) v :: s.busLog else s.busLog
    dmaStall := if a = 0x4014 then (if s.cycle % 2 = 1 then 513 else 514) else s.dmaStall
    cycle := s.cycle + 1 }

/-- A dummy read (70_reset_and_hazards.md R275): issued under `emit`; under `refuseOnDevice` not issued, and a fault where the
platform declares side effects. Its cycle passes either way (log 16). -/
def dummyRead (a : Addr) (s : State) : Except Fault State :=
  match s.cfg.dummyPolicy with
  | .emit => .ok (afterRead a s)
  | .refuseOnDevice => if hasSideEffects s a then .error (.deviceDummyAccess a) else .ok (tick s)

/-- A discarded read that an instruction's own rule lists and that the table of 70_reset_and_hazards.md R275 marks as dummy as
well: BRK's read of the byte after its opcode (49_flag_other_undocumented.md R192, D13). Decision D12 issues the accesses of
the instruction rules under either policy, so it is issued; and under `refuseOnDevice` it faults on a dummy access of the
table with side effects, so this read faults there (log 11). -/
def discardedRead (a : Addr) (s : State) : Except Fault State :=
  match s.cfg.dummyPolicy with
  | .emit => .ok (afterRead a s)
  | .refuseOnDevice => if hasSideEffects s a then .error (.deviceDummyAccess a) else .ok (afterRead a s)

/-- A dummy write, the old value of a read-modify-write instruction (70_reset_and_hazards.md R275, C4). -/
def dummyWrite (a : Addr) (v : Byte) (s : State) : Except Fault State :=
  match s.cfg.dummyPolicy with
  | .emit => .ok (write a v s)
  | .refuseOnDevice => if hasSideEffects s a then .error (.deviceDummyAccess a) else .ok (tick s)

/-- Two reads, the low byte's address first; the bytes as one address (20_memory.md R51). -/
def readPair (low high : Addr) (s : State) : Addr × State :=
  let l := read low s
  let h := read high l.2
  (join h.1 l.1, h.2)

/-- `Read16(a)` (20_memory.md R48): the high byte's address wraps modulo 65536. -/
def read16 (a : Addr) (s : State) : Addr × State := readPair a (a + 1) s

/-- `Read16ZP(z)` (20_memory.md R49): both bytes from page $00. -/
def read16ZP (z : Byte) (s : State) : Addr × State := readPair (zext z) (zext (z + 1)) s

/-- `Read16Page(a)` (20_memory.md R50): the high byte from the page of the low byte, the bug of JMP (Indirect). -/
def read16Page (a : Addr) (s : State) : Addr × State := readPair a (a &&& 0xFF00 ||| (a + 1) &&& 0x00FF) s

/-! ### The stack -/

/-- The stack address of a stack pointer value: always in page $01 (10_state.md R14). -/
def stackAddr (sp : Byte) : Addr := 0x0100 + zext sp

/-- `Push(v)` (10_state.md R25): write at `$0100 + SP`, then decrement SP modulo 256. -/
def push (v : Byte) (s : State) : State := { write (stackAddr s.sp) v s with sp := s.sp - 1 }

/-- `Pull()` (10_state.md R26): increment SP modulo 256, then read at `$0100 + SP`. -/
def pull (s : State) : Byte × State := read (stackAddr (s.sp + 1)) { s with sp := s.sp + 1 }

/-- Push an address, high byte first (20_memory.md R51; 48_branch_jump.md R176; 60_exceptions.md R226). -/
def pushAddr (a : Addr) (s : State) : State := push (lo a) (push (hi a) s)

/-- Pull an address, low byte first (48_branch_jump.md R177, R178). -/
def pullAddr (s : State) : Addr × State :=
  let l := pull s
  let h := pull l.2
  (join h.1 l.1, h.2)

/-- `PC <- pc +_16 len` (10_state.md R13). -/
def advance (len : Nat) (s : State) : State := { s with pc := s.pc + BitVec.ofNat 16 len }

/-! ### Taking an exception and returning from one -/

/-- The vectors (20_memory.md R55). -/
def nmiVector : Addr := 0xFFFA
/-- The reset vector (20_memory.md R55). -/
def resetVector : Addr := 0xFFFC
/-- The vector of IRQ and of BRK (20_memory.md R55). -/
def irqVector : Addr := 0xFFFE

/-- Entering a handler, shared by BRK, NMI and IRQ (60_exceptions.md R226; 49_flag_other_undocumented.md R192): push the
return address, high byte first, push the status byte with B = `b`, set I after the push, load PC from the vector, and leave
no poll result (R227). A, X, Y, N, V, D, Z, C are unchanged. -/
def enterHandler (ret : Addr) (b : Bool) (vector : Addr) (s : State) : State :=
  let s1 := pushAddr ret s
  let s2 := push (statusByte b s1.p) s1
  let target := read16 vector (setI true s2)
  { target.2 with pc := target.1, takeInt := .none }

/-- Returning from a handler, the operation of RTI (48_branch_jump.md R178; 60_exceptions.md R234): pull the status byte into
the six flags, pull PC low, then PC high; nothing is added to PC. -/
def returnFromHandler (s : State) : State :=
  let p := pull s
  let ret := pullAddr (setStatus p.1 p.2)
  { ret.2 with pc := ret.1 }

/-- The interrupt sequence of NMI and IRQ (60_exceptions.md R226): two discarded reads at PC, then the entry with B = 0 and the
address of the instruction that would have run next. DESIGN CHOICE (log 26): the spec samples the inputs at an instruction's
poll and polls no sequence (D14, D15), so it does not order the sample of this step and the clearing of the NMI latch. Here
the step has sampled first (`sampleLines`), and the NMI sequence clears the latch afterwards: an NMI edge in the sample of the
very step that takes the NMI sequence is dropped. The IRQ sequence keeps such an edge. -/
def interruptSequence (nmi : Bool) (s : State) : Except Fault State := do
  let s1 ← dummyRead s.pc s
  let s2 ← dummyRead s.pc s1
  let s3 := enterHandler s.pc false (if nmi then nmiVector else irqVector) s2
  return { s3 with nmiPending := if nmi then false else s3.nmiPending }

/-- The reset sequence (60_exceptions.md R222): D cleared, I set, PC from the reset vector, the latch and the poll result
cleared (an NMI edge of the same step's sample included: log 26), memory unchanged. A, X, Y, SP, N, V, Z, C become unspecified: free values (D7; log 2). Before the vector is read the
bus sees two reads at PC and three of the stack in place of the pushes (70_reset_and_hazards.md R275; log 17). The cycle
counter starts at 0 (R272). -/
def resetSequence (s : State) : Except Fault State := do
  let s1 ← dummyRead s.pc s
  let s2 ← dummyRead s.pc s1
  let s3 ← dummyRead (stackAddr s.sp) s2
  let s4 ← dummyRead (stackAddr (s.sp - 1)) s3
  let s5 ← dummyRead (stackAddr (s.sp - 2)) s4
  let target := read16 resetVector s5
  let k := s.freeCount
  return { target.2 with
    a := Config.freeByte k
    x := Config.freeByte (k + 1)
    y := Config.freeByte (k + 2)
    sp := Config.freeByte (k + 3)
    p := { n := Config.freeBit k, v := Config.freeBit (k + 1), d := false, i := true,
           z := Config.freeBit (k + 2), c := Config.freeBit (k + 3) }
    pc := target.1
    nmiPending := false
    takeInt := .none
    cycle := 0
    dmaStall := 0
    freeCount := k + 4 }

/-! ### The interrupt inputs and the poll -/

/-- Sample the interrupt inputs, once per step (60_exceptions.md R230, D14; log 9): take the next levels the environment
supplies, if any; the inactive-to-active transition of the NMI line sets the latch (R224). Every step samples when it starts,
also one that runs a sequence, which the spec leaves open (DESIGN CHOICE: log 9, log 26). -/
def sampleLines (s : State) : State :=
  match s.inputs with
  | [] => s
  | l :: rest =>
    { s with lines := l, inputs := rest, nmiPending := s.nmiPending || (l.nmi && !s.lines.nmi) }

/-- The interrupt poll with the value `iPoll` of I (60_exceptions.md R230, R240): NMI wins over IRQ; IRQ is honoured only if
I is 0. -/
def poll (iPoll : Bool) (s : State) : State :=
  { s with takeInt := if s.nmiPending then .nmi else if s.lines.irq && !iPoll then .irq else .none }

/-- The poll of an instruction (60_exceptions.md R227, R231): CLI, SEI and PLP are polled with I as it was before the
instruction, every other instruction with I as it is after; BRK is not polled. -/
def pollAfter (m : Mnemonic) (before after : State) : State :=
  if m = .brk then after
  else if m = .cli ∨ m = .sei ∨ m = .plp then poll before.p.i after
  else poll after.p.i after

/-- Serve a pending OAM DMA stall after the instruction that triggered it: cycles pass, nothing else changes
(70_reset_and_hazards.md R272, D20). -/
def serveStall (s : State) : State := { s with cycle := s.cycle + s.dmaStall, dmaStall := 0 }

/-- What a step adds after an instruction: the DMA stall, then the poll (00_scope.md R8). -/
def completeInstr (m : Mnemonic) (before after : State) : State := pollAfter m before (serveStall after)

/-- The outcome of a computation that can only fault. -/
def finish : Except Fault State → Result
  | .ok s => .next s
  | .error f => .fault f

end Sys2Proof.Machine
end

