-- ==== Sys2Proof/Machine/Operands.lean ====
section
/-!
DEFINITION. The addressing modes (40_addressing_modes.md R90 to R101) and the shapes of the instructions that use them. The
operand bytes of an instruction are read by the fetch (Machine/Fetch.lean); here stand the accesses after them, in the order
of 70_reset_and_hazards.md R275.
-/

namespace Sys2Proof.Machine

/-- `crossed`: the indexed address lies in another page than its base (40_addressing_modes.md R96, R97, R100). -/
def pageCrossed (base : Addr) (idx : Byte) : Bool := hi (base + zext idx) != hi base

/-- The address with the uncorrected high byte, `unc` of 70_reset_and_hazards.md R275. -/
def uncorrected (base : Addr) (idx : Byte) : Addr := join (hi base) (lo base + idx)

/-- `base +_16 zext_16(idx)` (40_addressing_modes.md R96, R97, R100). The wrong address is read first if the page is crossed, and
always by an instruction that writes (`always`; 70_reset_and_hazards.md R275). -/
def indexed (always : Bool) (base : Addr) (idx : Byte) (s : State) : Except Fault (Addr × State) :=
  if always || pageCrossed base idx then
    match dummyRead (uncorrected base idx) s with
    | .ok s1 => .ok (base + zext idx, s1)
    | .error f => .error f
  else .ok (base + zext idx, s)

/-- `Operand(mode)` (40_addressing_modes.md R90): the effective address, after the mode's pointer and dummy reads. `always` says
that the instruction writes, which fixes the dummy read of the indexed modes. No mode writes a register (R105). -/
def address (always : Bool) (m : MemOperand) (s : State) : Except Fault (Addr × State) :=
  match m with
  | .imm _ => .ok (s.pc + 1, s)
  | .zp b => .ok (zext b, s)
  | .zpX b => do
    let s1 ← dummyRead (zext b) s
    return (zext (b + s.x), s1)
  | .zpY b => do
    let s1 ← dummyRead (zext b) s
    return (zext (b + s.y), s1)
  | .abs a => .ok (a, s)
  | .absX a => indexed always a s.x s
  | .absY a => indexed always a s.y s
  | .indX b => do
    let s1 ← dummyRead (zext b) s
    return read16ZP (b + s.x) s1
  | .indY b =>
    let base := read16ZP b s
    indexed always base.1 s.y base.2

/-- The data byte of an instruction that reads its operand. An immediate byte is the operand byte itself, read once, by the
fetch (40_addressing_modes.md R91). -/
def readOperand (m : MemOperand) (s : State) : Except Fault (Byte × State) :=
  match m with
  | .imm b => .ok (b, s)
  | m => do
    let ea ← address false m s
    return read ea.1 ea.2

/-- An instruction that reads its operand: `f` is what it does with the byte; then PC moves past it. -/
def readInstr (m : MemOperand) (f : Byte → State → State) (s : State) : Result :=
  finish do
    let v ← readOperand m s
    return advance m.length (f v.1 v.2)

/-- An instruction that writes the byte `v` at its effective address; then PC moves past it. -/
def storeInstr (m : MemOperand) (v : State → Byte) (s : State) : Result :=
  finish do
    let ea ← address true m s
    return advance m.length (write ea.1 (v ea.2) ea.2)

/-- A read-modify-write instruction (C4): read the byte, write it back, write the new byte `f`, then do `g` with the old and
the new byte; then PC moves past it. -/
def modifyInstr (m : MemOperand) (f : State → Byte → Byte) (g : Byte → Byte → State → State) (s : State) : Result :=
  finish do
    let ea ← address true m s
    let v := read ea.1 ea.2
    let s1 ← dummyWrite ea.1 v.1 v.2
    let r := f s1 v.1
    return advance m.length (g v.1 r (write ea.1 r s1))

/-- A one-byte instruction: the byte after it is read and discarded (40_addressing_modes.md R103); then `f`; then PC moves
past it. -/
def impliedInstr (f : State → State) (s : State) : Result :=
  finish do
    let s1 ← dummyRead (s.pc + 1) s
    return advance 1 (f s1)

/-- An undocumented instruction is a fault where the platform does not admit it (30_encoding.md R81). -/
def ifAdmitted (op : Byte) (s : State) (r : Result) : Result :=
  if s.cfg.admitUndocumented then r else .fault (.undocumentedNotAdmitted op s.pc)

end Sys2Proof.Machine
end

