-- ==== Sys2Proof/Machine/Arithmetic.lean ====
section
/-!
DEFINITION. ADC and SBC (43_arithmetic.md R135 to R137); binary whatever D holds.
-/

namespace Sys2Proof.Machine

/-- ADC (43_arithmetic.md R135). -/
def opAdc (m : MemOperand) (s : State) : Result := readInstr m addWithCarry s

/-- $61 ADC, (Indirect,X) (R135, R99). -/
def execAdcIndX (b : Byte) (s : State) : Result := opAdc (.indX b) s

/-- $65 ADC, Zero Page (R135, R92). -/
def execAdcZp (b : Byte) (s : State) : Result := opAdc (.zp b) s

/-- $69 ADC, Immediate (R135, R91). -/
def execAdcImm (b : Byte) (s : State) : Result := opAdc (.imm b) s

/-- $6D ADC, Absolute (R135, R95). -/
def execAdcAbs (a : Addr) (s : State) : Result := opAdc (.abs a) s

/-- $71 ADC, (Indirect),Y (R135, R100). -/
def execAdcIndY (b : Byte) (s : State) : Result := opAdc (.indY b) s

/-- $75 ADC, Zero Page,X (R135, R93). -/
def execAdcZpX (b : Byte) (s : State) : Result := opAdc (.zpX b) s

/-- $79 ADC, Absolute,Y (R135, R97). -/
def execAdcAbsY (a : Addr) (s : State) : Result := opAdc (.absY a) s

/-- $7D ADC, Absolute,X (R135, R96). -/
def execAdcAbsX (a : Addr) (s : State) : Result := opAdc (.absX a) s

/-- SBC (43_arithmetic.md R136): AddWithCarry of the complemented operand. -/
def opSbc (m : MemOperand) (s : State) : Result := readInstr m (fun v s => addWithCarry (v ^^^ 0xFF) s) s

/-- $E1 SBC, (Indirect,X) (R136, R99). -/
def execSbcIndX (b : Byte) (s : State) : Result := opSbc (.indX b) s

/-- $E5 SBC, Zero Page (R136, R92). -/
def execSbcZp (b : Byte) (s : State) : Result := opSbc (.zp b) s

/-- $E9 SBC, Immediate (R136, R91). -/
def execSbcImm (b : Byte) (s : State) : Result := opSbc (.imm b) s

/-- $ED SBC, Absolute (R136, R95). -/
def execSbcAbs (a : Addr) (s : State) : Result := opSbc (.abs a) s

/-- $F1 SBC, (Indirect),Y (R136, R100). -/
def execSbcIndY (b : Byte) (s : State) : Result := opSbc (.indY b) s

/-- $F5 SBC, Zero Page,X (R136, R93). -/
def execSbcZpX (b : Byte) (s : State) : Result := opSbc (.zpX b) s

/-- $F9 SBC, Absolute,Y (R136, R97). -/
def execSbcAbsY (a : Addr) (s : State) : Result := opSbc (.absY a) s

/-- $FD SBC, Absolute,X (R136, R96). -/
def execSbcAbsX (a : Addr) (s : State) : Result := opSbc (.absX a) s

end Sys2Proof.Machine
end

