-- ==== Sys2Proof/Machine/BranchJump.lean ====
section
/-!
DEFINITION. Branches, jumps, calls and returns (48_branch_jump.md R165 to R180).
-/

namespace Sys2Proof.Machine

/-- `target <- next +_16 sext_16(b1)` (48_branch_jump.md R165; 40_addressing_modes.md R101). -/
def branchTarget (pc : Addr) (offset : Byte) : Addr := pc + 2 + sext offset

/-- The common branch operation (48_branch_jump.md R165): PC to the target if `cond`, past the branch if not. A taken branch reads
the next opcode and discards it, and reads at the target with the uncorrected high byte if the page is crossed
(70_reset_and_hazards.md R275). -/
def branch (cond : Bool) (offset : Byte) (s : State) : Result :=
  let next := s.pc + 2
  let target := branchTarget s.pc offset
  if cond then
    finish do
      let s1 ← dummyRead next s
      if hi target != hi next then
        let s2 ← dummyRead (join (hi next) (lo target)) s1
        return { s2 with pc := target }
      else
        return { s1 with pc := target }
  else .next { s with pc := next }

/-- BPL: N = 0 (48_branch_jump.md R166). -/
def opBpl (offset : Byte) (s : State) : Result := branch (!s.p.n) offset s

/-- $10 BPL, Relative (R166, R101). -/
def execBpl (b : Byte) (s : State) : Result := opBpl b s

/-- BMI: N = 1 (48_branch_jump.md R167). -/
def opBmi (offset : Byte) (s : State) : Result := branch s.p.n offset s

/-- $30 BMI, Relative (R167, R101). -/
def execBmi (b : Byte) (s : State) : Result := opBmi b s

/-- BVC: V = 0 (48_branch_jump.md R168). -/
def opBvc (offset : Byte) (s : State) : Result := branch (!s.p.v) offset s

/-- $50 BVC, Relative (R168, R101). -/
def execBvc (b : Byte) (s : State) : Result := opBvc b s

/-- BVS: V = 1 (48_branch_jump.md R169). -/
def opBvs (offset : Byte) (s : State) : Result := branch s.p.v offset s

/-- $70 BVS, Relative (R169, R101). -/
def execBvs (b : Byte) (s : State) : Result := opBvs b s

/-- BCC: C = 0 (48_branch_jump.md R170). -/
def opBcc (offset : Byte) (s : State) : Result := branch (!s.p.c) offset s

/-- $90 BCC, Relative (R170, R101). -/
def execBcc (b : Byte) (s : State) : Result := opBcc b s

/-- BCS: C = 1 (48_branch_jump.md R171). -/
def opBcs (offset : Byte) (s : State) : Result := branch s.p.c offset s

/-- $B0 BCS, Relative (R171, R101). -/
def execBcs (b : Byte) (s : State) : Result := opBcs b s

/-- BNE: Z = 0 (48_branch_jump.md R172). -/
def opBne (offset : Byte) (s : State) : Result := branch (!s.p.z) offset s

/-- $D0 BNE, Relative (R172, R101). -/
def execBne (b : Byte) (s : State) : Result := opBne b s

/-- BEQ: Z = 1 (48_branch_jump.md R173). -/
def opBeq (offset : Byte) (s : State) : Result := branch s.p.z offset s

/-- $F0 BEQ, Relative (R173, R101). -/
def execBeq (b : Byte) (s : State) : Result := opBeq b s

/-- JMP Absolute (48_branch_jump.md R174). -/
def opJmp (target : Addr) (s : State) : Result := .next { s with pc := target }

/-- JMP Indirect (48_branch_jump.md R175; 40_addressing_modes.md R98): the pointer wraps inside its page. -/
def opJmpInd (ptr : Addr) (s : State) : Result :=
  let target := read16Page ptr s
  .next { target.2 with pc := target.1 }

/-- $4C JMP, Absolute (R174, R95). -/
def execJmpAbs (a : Addr) (s : State) : Result := opJmp a s

/-- $6C JMP, Indirect (R175, R98). -/
def execJmpInd (a : Addr) (s : State) : Result := opJmpInd a s

/-- JSR (48_branch_jump.md R176): a discarded read of the stack; push `pc + 2`, the address of the JSR's own last byte, high
byte first; only then read the second operand byte, at `pc + 2`, and go to the target (20_memory.md R60; 70_reset_and_hazards.md
R275). The high byte is the one this read gives: the fetch has not accessed it (log 10), and the byte may be one just pushed. -/
def opJsr (target : Addr) (s : State) : Result :=
  finish do
    let s1 ← dummyRead (stackAddr s.sp) s
    let s2 := pushAddr (s.pc + 2) s1
    let high := read (s.pc + 2) s2
    return { high.2 with pc := join high.1 (lo target) }

/-- $20 JSR, Absolute (R176, R95). -/
def execJsr (a : Addr) (s : State) : Result := opJsr a s

/-- RTS (48_branch_jump.md R177): pull low, pull high, add 1. The byte after the opcode, the stack byte at SP and the byte at the
pulled address are read and discarded (70_reset_and_hazards.md R275). -/
def opRts (s : State) : Result :=
  finish do
    let s1 ← dummyRead (s.pc + 1) s
    let s2 ← dummyRead (stackAddr s.sp) s1
    let ret := pullAddr s2
    let s3 ← dummyRead ret.1 ret.2
    return { s3 with pc := ret.1 + 1 }

/-- $60 RTS, Implied (R177, R103). -/
def execRts (s : State) : Result := opRts s

/-- RTI (48_branch_jump.md R178): the return from an exception, after the two discarded reads of 70_reset_and_hazards.md R275. -/
def opRti (s : State) : Result :=
  finish do
    let s1 ← dummyRead (s.pc + 1) s
    let s2 ← dummyRead (stackAddr s.sp) s1
    return returnFromHandler s2

/-- $40 RTI, Implied (R178, R103). -/
def execRti (s : State) : Result := opRti s

end Sys2Proof.Machine
end

