-- ==== Sys2Proof/Machine/CompareBit.lean ====
section
/-!
DEFINITION. CMP, CPX, CPY and BIT (47_compare_bittest.md R160 to R164); none writes a register or memory.
-/

namespace Sys2Proof.Machine

/-- CMP (47_compare_bittest.md R160). -/
def opCmp (m : MemOperand) (s : State) : Result := readInstr m (fun v s => compare s.a v s) s

/-- $C1 CMP, (Indirect,X) (R160, R99). -/
def execCmpIndX (b : Byte) (s : State) : Result := opCmp (.indX b) s

/-- $C5 CMP, Zero Page (R160, R92). -/
def execCmpZp (b : Byte) (s : State) : Result := opCmp (.zp b) s

/-- $C9 CMP, Immediate (R160, R91). -/
def execCmpImm (b : Byte) (s : State) : Result := opCmp (.imm b) s

/-- $CD CMP, Absolute (R160, R95). -/
def execCmpAbs (a : Addr) (s : State) : Result := opCmp (.abs a) s

/-- $D1 CMP, (Indirect),Y (R160, R100). -/
def execCmpIndY (b : Byte) (s : State) : Result := opCmp (.indY b) s

/-- $D5 CMP, Zero Page,X (R160, R93). -/
def execCmpZpX (b : Byte) (s : State) : Result := opCmp (.zpX b) s

/-- $D9 CMP, Absolute,Y (R160, R97). -/
def execCmpAbsY (a : Addr) (s : State) : Result := opCmp (.absY a) s

/-- $DD CMP, Absolute,X (R160, R96). -/
def execCmpAbsX (a : Addr) (s : State) : Result := opCmp (.absX a) s

/-- CPX (47_compare_bittest.md R161). -/
def opCpx (m : MemOperand) (s : State) : Result := readInstr m (fun v s => compare s.x v s) s

/-- $E0 CPX, Immediate (R161, R91). -/
def execCpxImm (b : Byte) (s : State) : Result := opCpx (.imm b) s

/-- $E4 CPX, Zero Page (R161, R92). -/
def execCpxZp (b : Byte) (s : State) : Result := opCpx (.zp b) s

/-- $EC CPX, Absolute (R161, R95). -/
def execCpxAbs (a : Addr) (s : State) : Result := opCpx (.abs a) s

/-- CPY (47_compare_bittest.md R162). -/
def opCpy (m : MemOperand) (s : State) : Result := readInstr m (fun v s => compare s.y v s) s

/-- $C0 CPY, Immediate (R162, R91). -/
def execCpyImm (b : Byte) (s : State) : Result := opCpy (.imm b) s

/-- $C4 CPY, Zero Page (R162, R92). -/
def execCpyZp (b : Byte) (s : State) : Result := opCpy (.zp b) s

/-- $CC CPY, Absolute (R162, R95). -/
def execCpyAbs (a : Addr) (s : State) : Result := opCpy (.abs a) s

/-- BIT (47_compare_bittest.md R163). -/
def opBit (m : MemOperand) (s : State) : Result := readInstr m bitTest s

/-- $24 BIT, Zero Page (R163, R92). -/
def execBitZp (b : Byte) (s : State) : Result := opBit (.zp b) s

/-- $2C BIT, Absolute (R163, R95). -/
def execBitAbs (a : Addr) (s : State) : Result := opBit (.abs a) s

end Sys2Proof.Machine
end

