-- ==== Sys2Proof/Machine/FlagOther.lean ====
section
/-!
DEFINITION. The flag instructions, BRK and NOP (49_flag_other_undocumented.md R185 to R194).
-/

namespace Sys2Proof.Machine

/-- CLC (49_flag_other_undocumented.md R185). -/
def opClc (s : State) : Result := impliedInstr (setC false) s

/-- $18 CLC, Implied (R185, R103). -/
def execClc (s : State) : Result := opClc s

/-- SEC (49_flag_other_undocumented.md R186). -/
def opSec (s : State) : Result := impliedInstr (setC true) s

/-- $38 SEC, Implied (R186, R103). -/
def execSec (s : State) : Result := opSec s

/-- CLI (49_flag_other_undocumented.md R187). Its poll is in `pollAfter`. -/
def opCli (s : State) : Result := impliedInstr (setI false) s

/-- $58 CLI, Implied (R187, R103). -/
def execCli (s : State) : Result := opCli s

/-- SEI (49_flag_other_undocumented.md R188). Its poll is in `pollAfter`. -/
def opSei (s : State) : Result := impliedInstr (setI true) s

/-- $78 SEI, Implied (R188, R103). -/
def execSei (s : State) : Result := opSei s

/-- CLV (49_flag_other_undocumented.md R189). -/
def opClv (s : State) : Result := impliedInstr (setV false) s

/-- $B8 CLV, Implied (R189, R103). -/
def execClv (s : State) : Result := opClv s

/-- CLD (49_flag_other_undocumented.md R190). -/
def opCld (s : State) : Result := impliedInstr (setD false) s

/-- $D8 CLD, Implied (R190, R103). -/
def execCld (s : State) : Result := opCld s

/-- SED (49_flag_other_undocumented.md R191): D is stored and has no effect. -/
def opSed (s : State) : Result := impliedInstr (setD true) s

/-- $F8 SED, Implied (R191, R103). -/
def execSed (s : State) : Result := opSed s

/-- BRK (49_flag_other_undocumented.md R192): the byte after the opcode is read and discarded; the handler is entered with B = 1
and the return address `pc + 2`. The read stands in the rule itself and is a dummy access of 70_reset_and_hazards.md R275
(D12, D13; log 11). -/
def opBrk (s : State) : Result :=
  finish do
    let s1 ← discardedRead (s.pc + 1) s
    return enterHandler (s.pc + 2) true irqVector s1

/-- $00 BRK, Implied (R192, R103). -/
def execBrk (s : State) : Result := opBrk s

/-- NOP (49_flag_other_undocumented.md R193). -/
def opNop (s : State) : Result := impliedInstr (fun s => s) s

/-- $EA NOP, Implied (R193, R103). -/
def execNop (s : State) : Result := opNop s

end Sys2Proof.Machine
end

