-- ==== Sys2Proof/Machine/IncDec.lean ====
section
/-!
DEFINITION. Increment and decrement (44_inc_dec.md R140 to R146); C and V are never touched.
-/

namespace Sys2Proof.Machine

/-- INC (44_inc_dec.md R140). -/
def opInc (m : MemOperand) (s : State) : Result := modifyInstr m (fun _ v => v + 1) (fun _ r s => setNZ r s) s

/-- $E6 INC, Zero Page (R140, R92). -/
def execIncZp (b : Byte) (s : State) : Result := opInc (.zp b) s

/-- $EE INC, Absolute (R140, R95). -/
def execIncAbs (a : Addr) (s : State) : Result := opInc (.abs a) s

/-- $F6 INC, Zero Page,X (R140, R93). -/
def execIncZpX (b : Byte) (s : State) : Result := opInc (.zpX b) s

/-- $FE INC, Absolute,X (R140, R96). -/
def execIncAbsX (a : Addr) (s : State) : Result := opInc (.absX a) s

/-- INX (44_inc_dec.md R141). -/
def opInx (s : State) : Result := impliedInstr (fun s => loadX (s.x + 1) s) s

/-- $E8 INX, Implied (R141, R103). -/
def execInx (s : State) : Result := opInx s

/-- INY (44_inc_dec.md R142). -/
def opIny (s : State) : Result := impliedInstr (fun s => loadY (s.y + 1) s) s

/-- $C8 INY, Implied (R142, R103). -/
def execIny (s : State) : Result := opIny s

/-- DEC (44_inc_dec.md R143). -/
def opDec (m : MemOperand) (s : State) : Result := modifyInstr m (fun _ v => v - 1) (fun _ r s => setNZ r s) s

/-- $C6 DEC, Zero Page (R143, R92). -/
def execDecZp (b : Byte) (s : State) : Result := opDec (.zp b) s

/-- $CE DEC, Absolute (R143, R95). -/
def execDecAbs (a : Addr) (s : State) : Result := opDec (.abs a) s

/-- $D6 DEC, Zero Page,X (R143, R93). -/
def execDecZpX (b : Byte) (s : State) : Result := opDec (.zpX b) s

/-- $DE DEC, Absolute,X (R143, R96). -/
def execDecAbsX (a : Addr) (s : State) : Result := opDec (.absX a) s

/-- DEX (44_inc_dec.md R144). -/
def opDex (s : State) : Result := impliedInstr (fun s => loadX (s.x - 1) s) s

/-- $CA DEX, Implied (R144, R103). -/
def execDex (s : State) : Result := opDex s

/-- DEY (44_inc_dec.md R145). -/
def opDey (s : State) : Result := impliedInstr (fun s => loadY (s.y - 1) s) s

/-- $88 DEY, Implied (R145, R103). -/
def execDey (s : State) : Result := opDey s

end Sys2Proof.Machine
end

