-- ==== Sys2Proof/Machine/LoadStore.lean ====
section
/-!
DEFINITION. Load and store: LDA LDX LDY STA STX STY (41_load_store.md R110 to R116).
-/

namespace Sys2Proof.Machine

/-- LDA (41_load_store.md R110): the operand byte to A, N and Z from it. -/
def opLda (m : MemOperand) (s : State) : Result := readInstr m loadA s

/-- $A1 LDA, (Indirect,X) (R110, R99). -/
def execLdaIndX (b : Byte) (s : State) : Result := opLda (.indX b) s

/-- $A5 LDA, Zero Page (R110, R92). -/
def execLdaZp (b : Byte) (s : State) : Result := opLda (.zp b) s

/-- $A9 LDA, Immediate (R110, R91). -/
def execLdaImm (b : Byte) (s : State) : Result := opLda (.imm b) s

/-- $AD LDA, Absolute (R110, R95). -/
def execLdaAbs (a : Addr) (s : State) : Result := opLda (.abs a) s

/-- $B1 LDA, (Indirect),Y (R110, R100). -/
def execLdaIndY (b : Byte) (s : State) : Result := opLda (.indY b) s

/-- $B5 LDA, Zero Page,X (R110, R93). -/
def execLdaZpX (b : Byte) (s : State) : Result := opLda (.zpX b) s

/-- $B9 LDA, Absolute,Y (R110, R97). -/
def execLdaAbsY (a : Addr) (s : State) : Result := opLda (.absY a) s

/-- $BD LDA, Absolute,X (R110, R96). -/
def execLdaAbsX (a : Addr) (s : State) : Result := opLda (.absX a) s

/-- LDX (41_load_store.md R111): the operand byte to X, N and Z from it. -/
def opLdx (m : MemOperand) (s : State) : Result := readInstr m loadX s

/-- $A2 LDX, Immediate (R111, R91). -/
def execLdxImm (b : Byte) (s : State) : Result := opLdx (.imm b) s

/-- $A6 LDX, Zero Page (R111, R92). -/
def execLdxZp (b : Byte) (s : State) : Result := opLdx (.zp b) s

/-- $AE LDX, Absolute (R111, R95). -/
def execLdxAbs (a : Addr) (s : State) : Result := opLdx (.abs a) s

/-- $B6 LDX, Zero Page,Y (R111, R94). -/
def execLdxZpY (b : Byte) (s : State) : Result := opLdx (.zpY b) s

/-- $BE LDX, Absolute,Y (R111, R97). -/
def execLdxAbsY (a : Addr) (s : State) : Result := opLdx (.absY a) s

/-- LDY (41_load_store.md R112): the operand byte to Y, N and Z from it. -/
def opLdy (m : MemOperand) (s : State) : Result := readInstr m loadY s

/-- $A0 LDY, Immediate (R112, R91). -/
def execLdyImm (b : Byte) (s : State) : Result := opLdy (.imm b) s

/-- $A4 LDY, Zero Page (R112, R92). -/
def execLdyZp (b : Byte) (s : State) : Result := opLdy (.zp b) s

/-- $AC LDY, Absolute (R112, R95). -/
def execLdyAbs (a : Addr) (s : State) : Result := opLdy (.abs a) s

/-- $B4 LDY, Zero Page,X (R112, R93). -/
def execLdyZpX (b : Byte) (s : State) : Result := opLdy (.zpX b) s

/-- $BC LDY, Absolute,X (R112, R96). -/
def execLdyAbsX (a : Addr) (s : State) : Result := opLdy (.absX a) s

/-- STA (41_load_store.md R113): A to the effective address; no flag. -/
def opSta (m : MemOperand) (s : State) : Result := storeInstr m (fun s => s.a) s

/-- $81 STA, (Indirect,X) (R113, R99). -/
def execStaIndX (b : Byte) (s : State) : Result := opSta (.indX b) s

/-- $85 STA, Zero Page (R113, R92). -/
def execStaZp (b : Byte) (s : State) : Result := opSta (.zp b) s

/-- $8D STA, Absolute (R113, R95). -/
def execStaAbs (a : Addr) (s : State) : Result := opSta (.abs a) s

/-- $91 STA, (Indirect),Y (R113, R100). -/
def execStaIndY (b : Byte) (s : State) : Result := opSta (.indY b) s

/-- $95 STA, Zero Page,X (R113, R93). -/
def execStaZpX (b : Byte) (s : State) : Result := opSta (.zpX b) s

/-- $99 STA, Absolute,Y (R113, R97). -/
def execStaAbsY (a : Addr) (s : State) : Result := opSta (.absY a) s

/-- $9D STA, Absolute,X (R113, R96). -/
def execStaAbsX (a : Addr) (s : State) : Result := opSta (.absX a) s

/-- STX (41_load_store.md R114): X to the effective address; no flag. -/
def opStx (m : MemOperand) (s : State) : Result := storeInstr m (fun s => s.x) s

/-- $86 STX, Zero Page (R114, R92). -/
def execStxZp (b : Byte) (s : State) : Result := opStx (.zp b) s

/-- $8E STX, Absolute (R114, R95). -/
def execStxAbs (a : Addr) (s : State) : Result := opStx (.abs a) s

/-- $96 STX, Zero Page,Y (R114, R94). -/
def execStxZpY (b : Byte) (s : State) : Result := opStx (.zpY b) s

/-- STY (41_load_store.md R115): Y to the effective address; no flag. -/
def opSty (m : MemOperand) (s : State) : Result := storeInstr m (fun s => s.y) s

/-- $84 STY, Zero Page (R115, R92). -/
def execStyZp (b : Byte) (s : State) : Result := opSty (.zp b) s

/-- $8C STY, Absolute (R115, R95). -/
def execStyAbs (a : Addr) (s : State) : Result := opSty (.abs a) s

/-- $94 STY, Zero Page,X (R115, R93). -/
def execStyZpX (b : Byte) (s : State) : Result := opSty (.zpX b) s

end Sys2Proof.Machine
end

