-- ==== Sys2Proof/Machine/Logical.lean ====
section
/-!
DEFINITION. AND, ORA, EOR (45_logical.md R150 to R153).
-/

namespace Sys2Proof.Machine

/-- AND (45_logical.md R150). -/
def opAnd (m : MemOperand) (s : State) : Result := readInstr m (fun v s => loadA (s.a &&& v) s) s

/-- $21 AND, (Indirect,X) (R150, R99). -/
def execAndIndX (b : Byte) (s : State) : Result := opAnd (.indX b) s

/-- $25 AND, Zero Page (R150, R92). -/
def execAndZp (b : Byte) (s : State) : Result := opAnd (.zp b) s

/-- $29 AND, Immediate (R150, R91). -/
def execAndImm (b : Byte) (s : State) : Result := opAnd (.imm b) s

/-- $2D AND, Absolute (R150, R95). -/
def execAndAbs (a : Addr) (s : State) : Result := opAnd (.abs a) s

/-- $31 AND, (Indirect),Y (R150, R100). -/
def execAndIndY (b : Byte) (s : State) : Result := opAnd (.indY b) s

/-- $35 AND, Zero Page,X (R150, R93). -/
def execAndZpX (b : Byte) (s : State) : Result := opAnd (.zpX b) s

/-- $39 AND, Absolute,Y (R150, R97). -/
def execAndAbsY (a : Addr) (s : State) : Result := opAnd (.absY a) s

/-- $3D AND, Absolute,X (R150, R96). -/
def execAndAbsX (a : Addr) (s : State) : Result := opAnd (.absX a) s

/-- ORA (45_logical.md R151). -/
def opOra (m : MemOperand) (s : State) : Result := readInstr m (fun v s => loadA (s.a ||| v) s) s

/-- $01 ORA, (Indirect,X) (R151, R99). -/
def execOraIndX (b : Byte) (s : State) : Result := opOra (.indX b) s

/-- $05 ORA, Zero Page (R151, R92). -/
def execOraZp (b : Byte) (s : State) : Result := opOra (.zp b) s

/-- $09 ORA, Immediate (R151, R91). -/
def execOraImm (b : Byte) (s : State) : Result := opOra (.imm b) s

/-- $0D ORA, Absolute (R151, R95). -/
def execOraAbs (a : Addr) (s : State) : Result := opOra (.abs a) s

/-- $11 ORA, (Indirect),Y (R151, R100). -/
def execOraIndY (b : Byte) (s : State) : Result := opOra (.indY b) s

/-- $15 ORA, Zero Page,X (R151, R93). -/
def execOraZpX (b : Byte) (s : State) : Result := opOra (.zpX b) s

/-- $19 ORA, Absolute,Y (R151, R97). -/
def execOraAbsY (a : Addr) (s : State) : Result := opOra (.absY a) s

/-- $1D ORA, Absolute,X (R151, R96). -/
def execOraAbsX (a : Addr) (s : State) : Result := opOra (.absX a) s

/-- EOR (45_logical.md R152). -/
def opEor (m : MemOperand) (s : State) : Result := readInstr m (fun v s => loadA (s.a ^^^ v) s) s

/-- $41 EOR, (Indirect,X) (R152, R99). -/
def execEorIndX (b : Byte) (s : State) : Result := opEor (.indX b) s

/-- $45 EOR, Zero Page (R152, R92). -/
def execEorZp (b : Byte) (s : State) : Result := opEor (.zp b) s

/-- $49 EOR, Immediate (R152, R91). -/
def execEorImm (b : Byte) (s : State) : Result := opEor (.imm b) s

/-- $4D EOR, Absolute (R152, R95). -/
def execEorAbs (a : Addr) (s : State) : Result := opEor (.abs a) s

/-- $51 EOR, (Indirect),Y (R152, R100). -/
def execEorIndY (b : Byte) (s : State) : Result := opEor (.indY b) s

/-- $55 EOR, Zero Page,X (R152, R93). -/
def execEorZpX (b : Byte) (s : State) : Result := opEor (.zpX b) s

/-- $59 EOR, Absolute,Y (R152, R97). -/
def execEorAbsY (a : Addr) (s : State) : Result := opEor (.absY a) s

/-- $5D EOR, Absolute,X (R152, R96). -/
def execEorAbsX (a : Addr) (s : State) : Result := opEor (.absX a) s

end Sys2Proof.Machine
end

