-- ==== Sys2Proof/Machine/ShiftRotate.lean ====
section
/-!
DEFINITION. ASL, LSR, ROL, ROR on A and on memory (46_shift_rotate.md R155 to R159).
-/

namespace Sys2Proof.Machine

/-- The flags of a shift left or rotate left: C is the old bit 7, N and Z describe the result (46_shift_rotate.md R155, R157). -/
def leftFlags (v r : Byte) (s : State) : State := setNZ r (setC (v.getLsbD 7) s)

/-- The flags of a shift right or rotate right: C is the old bit 0, N and Z describe the result (46_shift_rotate.md R156, R158). -/
def rightFlags (v r : Byte) (s : State) : State := setNZ r (setC (v.getLsbD 0) s)

/-- ASL A (46_shift_rotate.md R155). -/
def opAslAcc (s : State) : Result := impliedInstr (fun s => leftFlags s.a (shiftLeft s.a) { s with a := shiftLeft s.a }) s

/-- ASL on memory (46_shift_rotate.md R155). -/
def opAsl (m : MemOperand) (s : State) : Result := modifyInstr m (fun _ v => shiftLeft v) leftFlags s

/-- $06 ASL, Zero Page (R155, R92). -/
def execAslZp (b : Byte) (s : State) : Result := opAsl (.zp b) s

/-- $0A ASL, Accumulator (R155, R102). -/
def execAslAcc (s : State) : Result := opAslAcc s

/-- $0E ASL, Absolute (R155, R95). -/
def execAslAbs (a : Addr) (s : State) : Result := opAsl (.abs a) s

/-- $16 ASL, Zero Page,X (R155, R93). -/
def execAslZpX (b : Byte) (s : State) : Result := opAsl (.zpX b) s

/-- $1E ASL, Absolute,X (R155, R96). -/
def execAslAbsX (a : Addr) (s : State) : Result := opAsl (.absX a) s

/-- LSR A (46_shift_rotate.md R156). -/
def opLsrAcc (s : State) : Result := impliedInstr (fun s => rightFlags s.a (shiftRight s.a) { s with a := shiftRight s.a }) s

/-- LSR on memory (46_shift_rotate.md R156). -/
def opLsr (m : MemOperand) (s : State) : Result := modifyInstr m (fun _ v => shiftRight v) rightFlags s

/-- $46 LSR, Zero Page (R156, R92). -/
def execLsrZp (b : Byte) (s : State) : Result := opLsr (.zp b) s

/-- $4A LSR, Accumulator (R156, R102). -/
def execLsrAcc (s : State) : Result := opLsrAcc s

/-- $4E LSR, Absolute (R156, R95). -/
def execLsrAbs (a : Addr) (s : State) : Result := opLsr (.abs a) s

/-- $56 LSR, Zero Page,X (R156, R93). -/
def execLsrZpX (b : Byte) (s : State) : Result := opLsr (.zpX b) s

/-- $5E LSR, Absolute,X (R156, R96). -/
def execLsrAbsX (a : Addr) (s : State) : Result := opLsr (.absX a) s

/-- ROL A (46_shift_rotate.md R157). -/
def opRolAcc (s : State) : Result :=
  impliedInstr (fun s => leftFlags s.a (rotateLeft s.p.c s.a) { s with a := rotateLeft s.p.c s.a }) s

/-- ROL on memory (46_shift_rotate.md R157). -/
def opRol (m : MemOperand) (s : State) : Result := modifyInstr m (fun s v => rotateLeft s.p.c v) leftFlags s

/-- $26 ROL, Zero Page (R157, R92). -/
def execRolZp (b : Byte) (s : State) : Result := opRol (.zp b) s

/-- $2A ROL, Accumulator (R157, R102). -/
def execRolAcc (s : State) : Result := opRolAcc s

/-- $2E ROL, Absolute (R157, R95). -/
def execRolAbs (a : Addr) (s : State) : Result := opRol (.abs a) s

/-- $36 ROL, Zero Page,X (R157, R93). -/
def execRolZpX (b : Byte) (s : State) : Result := opRol (.zpX b) s

/-- $3E ROL, Absolute,X (R157, R96). -/
def execRolAbsX (a : Addr) (s : State) : Result := opRol (.absX a) s

/-- ROR A (46_shift_rotate.md R158). -/
def opRorAcc (s : State) : Result :=
  impliedInstr (fun s => rightFlags s.a (rotateRight s.p.c s.a) { s with a := rotateRight s.p.c s.a }) s

/-- ROR on memory (46_shift_rotate.md R158). -/
def opRor (m : MemOperand) (s : State) : Result := modifyInstr m (fun s v => rotateRight s.p.c v) rightFlags s

/-- $66 ROR, Zero Page (R158, R92). -/
def execRorZp (b : Byte) (s : State) : Result := opRor (.zp b) s

/-- $6A ROR, Accumulator (R158, R102). -/
def execRorAcc (s : State) : Result := opRorAcc s

/-- $6E ROR, Absolute (R158, R95). -/
def execRorAbs (a : Addr) (s : State) : Result := opRor (.abs a) s

/-- $76 ROR, Zero Page,X (R158, R93). -/
def execRorZpX (b : Byte) (s : State) : Result := opRor (.zpX b) s

/-- $7E ROR, Absolute,X (R158, R96). -/
def execRorAbsX (a : Addr) (s : State) : Result := opRor (.absX a) s

end Sys2Proof.Machine
end

