-- ==== Sys2Proof/Machine/TransferStack.lean ====
section
/-!
DEFINITION. Register transfers and stack instructions (42_transfer_stack.md R120 to R131).
-/

namespace Sys2Proof.Machine

/-- TAX (42_transfer_stack.md R120). -/
def opTax (s : State) : Result := impliedInstr (fun s => loadX s.a s) s

/-- $AA TAX, Implied (R120, R103). -/
def execTax (s : State) : Result := opTax s

/-- TAY (42_transfer_stack.md R121). -/
def opTay (s : State) : Result := impliedInstr (fun s => loadY s.a s) s

/-- $A8 TAY, Implied (R121, R103). -/
def execTay (s : State) : Result := opTay s

/-- TSX (42_transfer_stack.md R122): only the 8-bit SP is copied. -/
def opTsx (s : State) : Result := impliedInstr (fun s => loadX s.sp s) s

/-- $BA TSX, Implied (R122, R103). -/
def execTsx (s : State) : Result := opTsx s

/-- TXA (42_transfer_stack.md R123). -/
def opTxa (s : State) : Result := impliedInstr (fun s => loadA s.x s) s

/-- $8A TXA, Implied (R123, R103). -/
def execTxa (s : State) : Result := opTxa s

/-- TXS (42_transfer_stack.md R124): the one transfer that writes no flag. -/
def opTxs (s : State) : Result := impliedInstr (fun s => { s with sp := s.x }) s

/-- $9A TXS, Implied (R124, R103). -/
def execTxs (s : State) : Result := opTxs s

/-- TYA (42_transfer_stack.md R125). -/
def opTya (s : State) : Result := impliedInstr (fun s => loadA s.y s) s

/-- $98 TYA, Implied (R125, R103). -/
def execTya (s : State) : Result := opTya s

/-- PHA (42_transfer_stack.md R127). -/
def opPha (s : State) : Result := impliedInstr (fun s => push s.a s) s

/-- $48 PHA, Implied (R127, R103). -/
def execPha (s : State) : Result := opPha s

/-- PHP (42_transfer_stack.md R128): the status byte with bits 5 and 4 set. -/
def opPhp (s : State) : Result := impliedInstr (fun s => push (statusByte true s.p) s) s

/-- $08 PHP, Implied (R128, R103). -/
def execPhp (s : State) : Result := opPhp s

/-- The bus sequence of an instruction that pulls (70_reset_and_hazards.md R275): the byte after the opcode and the byte at
`$0100 + SP` are read and discarded, then `f` pulls. -/
def pullInstr (f : State → State) (s : State) : Except Fault State := do
  let s1 ← dummyRead (s.pc + 1) s
  let s2 ← dummyRead (stackAddr s.sp) s1
  return f s2

/-- PLA (42_transfer_stack.md R129). -/
def opPla (s : State) : Result :=
  finish do
    let t ← pullInstr (fun s => loadA (pull s).1 (pull s).2) s
    return advance 1 t

/-- $68 PLA, Implied (R129, R103). -/
def execPla (s : State) : Result := opPla s

/-- PLP (42_transfer_stack.md R130): bits 5 and 4 of the pulled byte are discarded. Its poll is in `pollAfter`. -/
def opPlp (s : State) : Result :=
  finish do
    let t ← pullInstr (fun s => setStatus (pull s).1 (pull s).2) s
    return advance 1 t

/-- $28 PLP, Implied (R130, R103). -/
def execPlp (s : State) : Result := opPlp s

end Sys2Proof.Machine
end

