-- ==== Sys2Proof/Machine/Undocumented.lean ====
section
/-!
DEFINITION. The twelve undocumented mnemonics (49_flag_other_undocumented.md R200 to R216), admitted by the platform's parameter (R81).
-/

namespace Sys2Proof.Machine

/-- ANC (49_flag_other_undocumented.md R204): AND, then C is bit 7 of the result. -/
def opAnc (op b : Byte) (s : State) : Result :=
  ifAdmitted op s (readInstr (.imm b) (fun m s => setC ((s.a &&& m).getLsbD 7) (loadA (s.a &&& m) s)) s)

/-- $0B ANC, Immediate (R204, R91). -/
def execAncImm0B (b : Byte) (s : State) : Result := opAnc 0x0B b s

/-- $2B ANC, Immediate (R204, R91). -/
def execAncImm2B (b : Byte) (s : State) : Result := opAnc 0x2B b s

/-- ALR (49_flag_other_undocumented.md R205): AND, then LSR; the flags are the LSR's. -/
def opAlr (op b : Byte) (s : State) : Result :=
  ifAdmitted op s (readInstr (.imm b)
    (fun m s => rightFlags (s.a &&& m) (shiftRight (s.a &&& m)) { s with a := shiftRight (s.a &&& m) }) s)

/-- $4B ALR, Immediate (R205, R91). -/
def execAlrImm (b : Byte) (s : State) : Result := opAlr 0x4B b s

/-- ARR (49_flag_other_undocumented.md R206, C6): AND, then rotate right through the old carry; C is bit 6 of the result, V is
bit 6 exclusive-or bit 5. -/
def opArr (op b : Byte) (s : State) : Result :=
  ifAdmitted op s (readInstr (.imm b)
    (fun m s =>
      let r := rotateRight s.p.c (s.a &&& m)
      setC (r.getLsbD 6) (setV (r.getLsbD 6 ^^ r.getLsbD 5) (loadA r s))) s)

/-- $6B ARR, Immediate (R206, R91). -/
def execArrImm (b : Byte) (s : State) : Result := opArr 0x6B b s

/-- AXS (49_flag_other_undocumented.md R207): X is `A & X` minus the operand, without borrow in; the flags of a compare. -/
def opAxs (op b : Byte) (s : State) : Result :=
  ifAdmitted op s (readInstr (.imm b) (fun m s => compare (s.a &&& s.x) m { s with x := (s.a &&& s.x) - m }) s)

/-- $CB AXS, Immediate (R207, R91). -/
def execAxsImm (b : Byte) (s : State) : Result := opAxs 0xCB b s

/-- SAX (49_flag_other_undocumented.md R208): `A & X` to the effective address; no flag. -/
def opSax (op : Byte) (m : MemOperand) (s : State) : Result :=
  ifAdmitted op s (storeInstr m (fun s => s.a &&& s.x) s)

/-- $83 SAX, (Indirect,X) (R208, R99). -/
def execSaxIndX (b : Byte) (s : State) : Result := opSax 0x83 (.indX b) s

/-- $87 SAX, Zero Page (R208, R92). -/
def execSaxZp (b : Byte) (s : State) : Result := opSax 0x87 (.zp b) s

/-- $8F SAX, Absolute (R208, R95). -/
def execSaxAbs (a : Addr) (s : State) : Result := opSax 0x8F (.abs a) s

/-- $97 SAX, Zero Page,Y (R208, R94). -/
def execSaxZpY (b : Byte) (s : State) : Result := opSax 0x97 (.zpY b) s

/-- LAX (49_flag_other_undocumented.md R209): the operand byte to A and X, N and Z from it. -/
def opLax (op : Byte) (m : MemOperand) (s : State) : Result :=
  ifAdmitted op s (readInstr m (fun v s => loadA v { s with x := v }) s)

/-- $A3 LAX, (Indirect,X) (R209, R99). -/
def execLaxIndX (b : Byte) (s : State) : Result := opLax 0xA3 (.indX b) s

/-- $A7 LAX, Zero Page (R209, R92). -/
def execLaxZp (b : Byte) (s : State) : Result := opLax 0xA7 (.zp b) s

/-- $AF LAX, Absolute (R209, R95). -/
def execLaxAbs (a : Addr) (s : State) : Result := opLax 0xAF (.abs a) s

/-- $B3 LAX, (Indirect),Y (R209, R100). -/
def execLaxIndY (b : Byte) (s : State) : Result := opLax 0xB3 (.indY b) s

/-- $B7 LAX, Zero Page,Y (R209, R94). -/
def execLaxZpY (b : Byte) (s : State) : Result := opLax 0xB7 (.zpY b) s

/-- DCP (49_flag_other_undocumented.md R210): DEC, then CMP with the new byte. -/
def opDcp (op : Byte) (m : MemOperand) (s : State) : Result :=
  ifAdmitted op s (modifyInstr m (fun _ v => v - 1) (fun _ r s => compare s.a r s) s)

/-- $C3 DCP, (Indirect,X) (R210, R99). -/
def execDcpIndX (b : Byte) (s : State) : Result := opDcp 0xC3 (.indX b) s

/-- $C7 DCP, Zero Page (R210, R92). -/
def execDcpZp (b : Byte) (s : State) : Result := opDcp 0xC7 (.zp b) s

/-- $CF DCP, Absolute (R210, R95). -/
def execDcpAbs (a : Addr) (s : State) : Result := opDcp 0xCF (.abs a) s

/-- $D3 DCP, (Indirect),Y (R210, R100). -/
def execDcpIndY (b : Byte) (s : State) : Result := opDcp 0xD3 (.indY b) s

/-- $D7 DCP, Zero Page,X (R210, R93). -/
def execDcpZpX (b : Byte) (s : State) : Result := opDcp 0xD7 (.zpX b) s

/-- $DB DCP, Absolute,Y (R210, R97). -/
def execDcpAbsY (a : Addr) (s : State) : Result := opDcp 0xDB (.absY a) s

/-- $DF DCP, Absolute,X (R210, R96). -/
def execDcpAbsX (a : Addr) (s : State) : Result := opDcp 0xDF (.absX a) s

/-- ISC (49_flag_other_undocumented.md R211): INC, then SBC with the new byte. -/
def opIsc (op : Byte) (m : MemOperand) (s : State) : Result :=
  ifAdmitted op s (modifyInstr m (fun _ v => v + 1) (fun _ r s => addWithCarry (r ^^^ 0xFF) s) s)

/-- $E3 ISC, (Indirect,X) (R211, R99). -/
def execIscIndX (b : Byte) (s : State) : Result := opIsc 0xE3 (.indX b) s

/-- $E7 ISC, Zero Page (R211, R92). -/
def execIscZp (b : Byte) (s : State) : Result := opIsc 0xE7 (.zp b) s

/-- $EF ISC, Absolute (R211, R95). -/
def execIscAbs (a : Addr) (s : State) : Result := opIsc 0xEF (.abs a) s

/-- $F3 ISC, (Indirect),Y (R211, R100). -/
def execIscIndY (b : Byte) (s : State) : Result := opIsc 0xF3 (.indY b) s

/-- $F7 ISC, Zero Page,X (R211, R93). -/
def execIscZpX (b : Byte) (s : State) : Result := opIsc 0xF7 (.zpX b) s

/-- $FB ISC, Absolute,Y (R211, R97). -/
def execIscAbsY (a : Addr) (s : State) : Result := opIsc 0xFB (.absY a) s

/-- $FF ISC, Absolute,X (R211, R96). -/
def execIscAbsX (a : Addr) (s : State) : Result := opIsc 0xFF (.absX a) s

/-- RLA (49_flag_other_undocumented.md R212): ROL, then AND with the new byte; C is the ROL's. -/
def opRla (op : Byte) (m : MemOperand) (s : State) : Result :=
  ifAdmitted op s (modifyInstr m (fun s v => rotateLeft s.p.c v)
    (fun v r s => setC (v.getLsbD 7) (loadA (s.a &&& r) s)) s)

/-- $23 RLA, (Indirect,X) (R212, R99). -/
def execRlaIndX (b : Byte) (s : State) : Result := opRla 0x23 (.indX b) s

/-- $27 RLA, Zero Page (R212, R92). -/
def execRlaZp (b : Byte) (s : State) : Result := opRla 0x27 (.zp b) s

/-- $2F RLA, Absolute (R212, R95). -/
def execRlaAbs (a : Addr) (s : State) : Result := opRla 0x2F (.abs a) s

/-- $33 RLA, (Indirect),Y (R212, R100). -/
def execRlaIndY (b : Byte) (s : State) : Result := opRla 0x33 (.indY b) s

/-- $37 RLA, Zero Page,X (R212, R93). -/
def execRlaZpX (b : Byte) (s : State) : Result := opRla 0x37 (.zpX b) s

/-- $3B RLA, Absolute,Y (R212, R97). -/
def execRlaAbsY (a : Addr) (s : State) : Result := opRla 0x3B (.absY a) s

/-- $3F RLA, Absolute,X (R212, R96). -/
def execRlaAbsX (a : Addr) (s : State) : Result := opRla 0x3F (.absX a) s

/-- RRA (49_flag_other_undocumented.md R213): ROR, then ADC of the new byte with the carry the ROR produced. -/
def opRra (op : Byte) (m : MemOperand) (s : State) : Result :=
  ifAdmitted op s (modifyInstr m (fun s v => rotateRight s.p.c v)
    (fun v r s => addWithCarry r (setC (v.getLsbD 0) s)) s)

/-- $63 RRA, (Indirect,X) (R213, R99). -/
def execRraIndX (b : Byte) (s : State) : Result := opRra 0x63 (.indX b) s

/-- $67 RRA, Zero Page (R213, R92). -/
def execRraZp (b : Byte) (s : State) : Result := opRra 0x67 (.zp b) s

/-- $6F RRA, Absolute (R213, R95). -/
def execRraAbs (a : Addr) (s : State) : Result := opRra 0x6F (.abs a) s

/-- $73 RRA, (Indirect),Y (R213, R100). -/
def execRraIndY (b : Byte) (s : State) : Result := opRra 0x73 (.indY b) s

/-- $77 RRA, Zero Page,X (R213, R93). -/
def execRraZpX (b : Byte) (s : State) : Result := opRra 0x77 (.zpX b) s

/-- $7B RRA, Absolute,Y (R213, R97). -/
def execRraAbsY (a : Addr) (s : State) : Result := opRra 0x7B (.absY a) s

/-- $7F RRA, Absolute,X (R213, R96). -/
def execRraAbsX (a : Addr) (s : State) : Result := opRra 0x7F (.absX a) s

/-- SLO (49_flag_other_undocumented.md R214): ASL, then ORA with the new byte; C is the ASL's. -/
def opSlo (op : Byte) (m : MemOperand) (s : State) : Result :=
  ifAdmitted op s (modifyInstr m (fun _ v => shiftLeft v)
    (fun v r s => setC (v.getLsbD 7) (loadA (s.a ||| r) s)) s)

/-- $03 SLO, (Indirect,X) (R214, R99). -/
def execSloIndX (b : Byte) (s : State) : Result := opSlo 0x03 (.indX b) s

/-- $07 SLO, Zero Page (R214, R92). -/
def execSloZp (b : Byte) (s : State) : Result := opSlo 0x07 (.zp b) s

/-- $0F SLO, Absolute (R214, R95). -/
def execSloAbs (a : Addr) (s : State) : Result := opSlo 0x0F (.abs a) s

/-- $13 SLO, (Indirect),Y (R214, R100). -/
def execSloIndY (b : Byte) (s : State) : Result := opSlo 0x13 (.indY b) s

/-- $17 SLO, Zero Page,X (R214, R93). -/
def execSloZpX (b : Byte) (s : State) : Result := opSlo 0x17 (.zpX b) s

/-- $1B SLO, Absolute,Y (R214, R97). -/
def execSloAbsY (a : Addr) (s : State) : Result := opSlo 0x1B (.absY a) s

/-- $1F SLO, Absolute,X (R214, R96). -/
def execSloAbsX (a : Addr) (s : State) : Result := opSlo 0x1F (.absX a) s

/-- SRE (49_flag_other_undocumented.md R215): LSR, then EOR with the new byte; C is the LSR's. -/
def opSre (op : Byte) (m : MemOperand) (s : State) : Result :=
  ifAdmitted op s (modifyInstr m (fun _ v => shiftRight v)
    (fun v r s => setC (v.getLsbD 0) (loadA (s.a ^^^ r) s)) s)

/-- $43 SRE, (Indirect,X) (R215, R99). -/
def execSreIndX (b : Byte) (s : State) : Result := opSre 0x43 (.indX b) s

/-- $47 SRE, Zero Page (R215, R92). -/
def execSreZp (b : Byte) (s : State) : Result := opSre 0x47 (.zp b) s

/-- $4F SRE, Absolute (R215, R95). -/
def execSreAbs (a : Addr) (s : State) : Result := opSre 0x4F (.abs a) s

/-- $53 SRE, (Indirect),Y (R215, R100). -/
def execSreIndY (b : Byte) (s : State) : Result := opSre 0x53 (.indY b) s

/-- $57 SRE, Zero Page,X (R215, R93). -/
def execSreZpX (b : Byte) (s : State) : Result := opSre 0x57 (.zpX b) s

/-- $5B SRE, Absolute,Y (R215, R97). -/
def execSreAbsY (a : Addr) (s : State) : Result := opSre 0x5B (.absY a) s

/-- $5F SRE, Absolute,X (R215, R96). -/
def execSreAbsX (a : Addr) (s : State) : Result := opSre 0x5F (.absX a) s

end Sys2Proof.Machine
end

