-- ==== Sys2Proof/Machine/Unlisted.lean ====
section
/-!
DEFINITION. The 49 opcode bytes the source lists nowhere (30_encoding.md R82): each is a fault.
-/

namespace Sys2Proof.Machine

/-- An unlisted opcode byte (30_encoding.md R82, D5): `fault UnlistedOpcode(op, pc)`. -/
def opUnlisted (op : Byte) (s : State) : Result := .fault (.unlistedOpcode op s.pc)

/-- $02 UNLISTED, in no table (R82). -/
def execUnlisted02 (s : State) : Result := opUnlisted 0x02 s

/-- $04 UNLISTED, in no table (R82). -/
def execUnlisted04 (s : State) : Result := opUnlisted 0x04 s

/-- $0C UNLISTED, in no table (R82). -/
def execUnlisted0C (s : State) : Result := opUnlisted 0x0C s

/-- $12 UNLISTED, in no table (R82). -/
def execUnlisted12 (s : State) : Result := opUnlisted 0x12 s

/-- $14 UNLISTED, in no table (R82). -/
def execUnlisted14 (s : State) : Result := opUnlisted 0x14 s

/-- $1A UNLISTED, in no table (R82). -/
def execUnlisted1A (s : State) : Result := opUnlisted 0x1A s

/-- $1C UNLISTED, in no table (R82). -/
def execUnlisted1C (s : State) : Result := opUnlisted 0x1C s

/-- $22 UNLISTED, in no table (R82). -/
def execUnlisted22 (s : State) : Result := opUnlisted 0x22 s

/-- $32 UNLISTED, in no table (R82). -/
def execUnlisted32 (s : State) : Result := opUnlisted 0x32 s

/-- $34 UNLISTED, in no table (R82). -/
def execUnlisted34 (s : State) : Result := opUnlisted 0x34 s

/-- $3A UNLISTED, in no table (R82). -/
def execUnlisted3A (s : State) : Result := opUnlisted 0x3A s

/-- $3C UNLISTED, in no table (R82). -/
def execUnlisted3C (s : State) : Result := opUnlisted 0x3C s

/-- $42 UNLISTED, in no table (R82). -/
def execUnlisted42 (s : State) : Result := opUnlisted 0x42 s

/-- $44 UNLISTED, in no table (R82). -/
def execUnlisted44 (s : State) : Result := opUnlisted 0x44 s

/-- $52 UNLISTED, in no table (R82). -/
def execUnlisted52 (s : State) : Result := opUnlisted 0x52 s

/-- $54 UNLISTED, in no table (R82). -/
def execUnlisted54 (s : State) : Result := opUnlisted 0x54 s

/-- $5A UNLISTED, in no table (R82). -/
def execUnlisted5A (s : State) : Result := opUnlisted 0x5A s

/-- $5C UNLISTED, in no table (R82). -/
def execUnlisted5C (s : State) : Result := opUnlisted 0x5C s

/-- $62 UNLISTED, in no table (R82). -/
def execUnlisted62 (s : State) : Result := opUnlisted 0x62 s

/-- $64 UNLISTED, in no table (R82). -/
def execUnlisted64 (s : State) : Result := opUnlisted 0x64 s

/-- $72 UNLISTED, in no table (R82). -/
def execUnlisted72 (s : State) : Result := opUnlisted 0x72 s

/-- $74 UNLISTED, in no table (R82). -/
def execUnlisted74 (s : State) : Result := opUnlisted 0x74 s

/-- $7A UNLISTED, in no table (R82). -/
def execUnlisted7A (s : State) : Result := opUnlisted 0x7A s

/-- $7C UNLISTED, in no table (R82). -/
def execUnlisted7C (s : State) : Result := opUnlisted 0x7C s

/-- $80 UNLISTED, in no table (R82). -/
def execUnlisted80 (s : State) : Result := opUnlisted 0x80 s

/-- $82 UNLISTED, in no table (R82). -/
def execUnlisted82 (s : State) : Result := opUnlisted 0x82 s

/-- $89 UNLISTED, in no table (R82). -/
def execUnlisted89 (s : State) : Result := opUnlisted 0x89 s

/-- $8B UNLISTED, in no table (R82). -/
def execUnlisted8B (s : State) : Result := opUnlisted 0x8B s

/-- $92 UNLISTED, in no table (R82). -/
def execUnlisted92 (s : State) : Result := opUnlisted 0x92 s

/-- $93 UNLISTED, in no table (R82). -/
def execUnlisted93 (s : State) : Result := opUnlisted 0x93 s

/-- $9B UNLISTED, in no table (R82). -/
def execUnlisted9B (s : State) : Result := opUnlisted 0x9B s

/-- $9C UNLISTED, in no table (R82). -/
def execUnlisted9C (s : State) : Result := opUnlisted 0x9C s

/-- $9E UNLISTED, in no table (R82). -/
def execUnlisted9E (s : State) : Result := opUnlisted 0x9E s

/-- $9F UNLISTED, in no table (R82). -/
def execUnlisted9F (s : State) : Result := opUnlisted 0x9F s

/-- $AB UNLISTED, in no table (R82). -/
def execUnlistedAB (s : State) : Result := opUnlisted 0xAB s

/-- $B2 UNLISTED, in no table (R82). -/
def execUnlistedB2 (s : State) : Result := opUnlisted 0xB2 s

/-- $BB UNLISTED, in no table (R82). -/
def execUnlistedBB (s : State) : Result := opUnlisted 0xBB s

/-- $BF UNLISTED, in no table (R82). -/
def execUnlistedBF (s : State) : Result := opUnlisted 0xBF s

/-- $C2 UNLISTED, in no table (R82). -/
def execUnlistedC2 (s : State) : Result := opUnlisted 0xC2 s

/-- $D2 UNLISTED, in no table (R82). -/
def execUnlistedD2 (s : State) : Result := opUnlisted 0xD2 s

/-- $D4 UNLISTED, in no table (R82). -/
def execUnlistedD4 (s : State) : Result := opUnlisted 0xD4 s

/-- $DA UNLISTED, in no table (R82). -/
def execUnlistedDA (s : State) : Result := opUnlisted 0xDA s

/-- $DC UNLISTED, in no table (R82). -/
def execUnlistedDC (s : State) : Result := opUnlisted 0xDC s

/-- $E2 UNLISTED, in no table (R82). -/
def execUnlistedE2 (s : State) : Result := opUnlisted 0xE2 s

/-- $EB UNLISTED, in no table (R82). -/
def execUnlistedEB (s : State) : Result := opUnlisted 0xEB s

/-- $F2 UNLISTED, in no table (R82). -/
def execUnlistedF2 (s : State) : Result := opUnlisted 0xF2 s

/-- $F4 UNLISTED, in no table (R82). -/
def execUnlistedF4 (s : State) : Result := opUnlisted 0xF4 s

/-- $FA UNLISTED, in no table (R82). -/
def execUnlistedFA (s : State) : Result := opUnlisted 0xFA s

/-- $FC UNLISTED, in no table (R82). -/
def execUnlistedFC (s : State) : Result := opUnlisted 0xFC s

end Sys2Proof.Machine
end

