-- ==== Sys2Proof/WellFormed.lean ====
section
/-!
DEFINITION. Which terms of `Instr` are well-formed. Operand bytes need no check: every value of an operand byte is legal
for every mode (30_encoding.md R84) and the operand types hold exactly the values of the encoding. What is checked is that
the opcode byte is one the source lists at all.
-/

namespace Sys2Proof

/-- The one check: the opcode byte is official or undocumented (30_encoding.md R74); an unlisted byte has no mnemonic, no
mode and no length (R82). -/
def Instr.listed (i : Instr) : Bool := i.status != .unlisted

/-- An instruction is well-formed when its opcode byte is listed (30_encoding.md R74, R82, R84). -/
def Instr.WellFormed (i : Instr) : Bool := i.listed

end Sys2Proof
end

