-- ==== Sys2Proof/Decode.lean ====
section
/-!
DEFINITION. The decoder, total on any list of bytes and rejecting by name, and after it the encoder. Decoding is a
256-entry table lookup on the opcode byte (30_encoding.md R70, R72, R84); the table below is the matrix of R75 with the
modes of R80. Operand bytes are low byte first (R73).
-/

namespace Sys2Proof

/-- One entry of the opcode matrix: the instruction of a byte, waiting for the operand bytes of its format (R71). -/
inductive Entry where
  /-- Format F1: no operand byte. -/
  | one (i : Instr)
  /-- Format F2: one operand byte. -/
  | two (mk : Byte → Instr)
  /-- Format F3: two operand bytes, an address. -/
  | three (mk : Addr → Instr)

/-- The opcode matrix of 30_encoding.md R75: the high hexadecimal digit of the opcode byte selects the row, the low one the
column. -/
def opcodeMatrix : List (List Entry) :=
  [[.one .brk, .two .oraIndX, .one .unlisted02, .two .sloIndX, .one .unlisted04, .two .oraZp, .two .aslZp, .two .sloZp,
     .one .php, .two .oraImm, .one .aslAcc, .two .ancImm0B, .one .unlisted0C, .three .oraAbs, .three .aslAbs, .three .sloAbs],
   [.two .bpl, .two .oraIndY, .one .unlisted12, .two .sloIndY, .one .unlisted14, .two .oraZpX, .two .aslZpX, .two .sloZpX,
     .one .clc, .three .oraAbsY, .one .unlisted1A, .three .sloAbsY, .one .unlisted1C, .three .oraAbsX, .three .aslAbsX, .three .sloAbsX],
   [.three .jsr, .two .andIndX, .one .unlisted22, .two .rlaIndX, .two .bitZp, .two .andZp, .two .rolZp, .two .rlaZp,
     .one .plp, .two .andImm, .one .rolAcc, .two .ancImm2B, .three .bitAbs, .three .andAbs, .three .rolAbs, .three .rlaAbs],
   [.two .bmi, .two .andIndY, .one .unlisted32, .two .rlaIndY, .one .unlisted34, .two .andZpX, .two .rolZpX, .two .rlaZpX,
     .one .sec, .three .andAbsY, .one .unlisted3A, .three .rlaAbsY, .one .unlisted3C, .three .andAbsX, .three .rolAbsX, .three .rlaAbsX],
   [.one .rti, .two .eorIndX, .one .unlisted42, .two .sreIndX, .one .unlisted44, .two .eorZp, .two .lsrZp, .two .sreZp,
     .one .pha, .two .eorImm, .one .lsrAcc, .two .alrImm, .three .jmpAbs, .three .eorAbs, .three .lsrAbs, .three .sreAbs],
   [.two .bvc, .two .eorIndY, .one .unlisted52, .two .sreIndY, .one .unlisted54, .two .eorZpX, .two .lsrZpX, .two .sreZpX,
     .one .cli, .three .eorAbsY, .one .unlisted5A, .three .sreAbsY, .one .unlisted5C, .three .eorAbsX, .three .lsrAbsX, .three .sreAbsX],
   [.one .rts, .two .adcIndX, .one .unlisted62, .two .rraIndX, .one .unlisted64, .two .adcZp, .two .rorZp, .two .rraZp,
     .one .pla, .two .adcImm, .one .rorAcc, .two .arrImm, .three .jmpInd, .three .adcAbs, .three .rorAbs, .three .rraAbs],
   [.two .bvs, .two .adcIndY, .one .unlisted72, .two .rraIndY, .one .unlisted74, .two .adcZpX, .two .rorZpX, .two .rraZpX,
     .one .sei, .three .adcAbsY, .one .unlisted7A, .three .rraAbsY, .one .unlisted7C, .three .adcAbsX, .three .rorAbsX, .three .rraAbsX],
   [.one .unlisted80, .two .staIndX, .one .unlisted82, .two .saxIndX, .two .styZp, .two .staZp, .two .stxZp, .two .saxZp,
     .one .dey, .one .unlisted89, .one .txa, .one .unlisted8B, .three .styAbs, .three .staAbs, .three .stxAbs, .three .saxAbs],
   [.two .bcc, .two .staIndY, .one .unlisted92, .one .unlisted93, .two .styZpX, .two .staZpX, .two .stxZpY, .two .saxZpY,
     .one .tya, .three .staAbsY, .one .txs, .one .unlisted9B, .one .unlisted9C, .three .staAbsX, .one .unlisted9E, .one .unlisted9F],
   [.two .ldyImm, .two .ldaIndX, .two .ldxImm, .two .laxIndX, .two .ldyZp, .two .ldaZp, .two .ldxZp, .two .laxZp,
     .one .tay, .two .ldaImm, .one .tax, .one .unlistedAB, .three .ldyAbs, .three .ldaAbs, .three .ldxAbs, .three .laxAbs],
   [.two .bcs, .two .ldaIndY, .one .unlistedB2, .two .laxIndY, .two .ldyZpX, .two .ldaZpX, .two .ldxZpY, .two .laxZpY,
     .one .clv, .three .ldaAbsY, .one .tsx, .one .unlistedBB, .three .ldyAbsX, .three .ldaAbsX, .three .ldxAbsY, .one .unlistedBF],
   [.two .cpyImm, .two .cmpIndX, .one .unlistedC2, .two .dcpIndX, .two .cpyZp, .two .cmpZp, .two .decZp, .two .dcpZp,
     .one .iny, .two .cmpImm, .one .dex, .two .axsImm, .three .cpyAbs, .three .cmpAbs, .three .decAbs, .three .dcpAbs],
   [.two .bne, .two .cmpIndY, .one .unlistedD2, .two .dcpIndY, .one .unlistedD4, .two .cmpZpX, .two .decZpX, .two .dcpZpX,
     .one .cld, .three .cmpAbsY, .one .unlistedDA, .three .dcpAbsY, .one .unlistedDC, .three .cmpAbsX, .three .decAbsX, .three .dcpAbsX],
   [.two .cpxImm, .two .sbcIndX, .one .unlistedE2, .two .iscIndX, .two .cpxZp, .two .sbcZp, .two .incZp, .two .iscZp,
     .one .inx, .two .sbcImm, .one .nop, .one .unlistedEB, .three .cpxAbs, .three .sbcAbs, .three .incAbs, .three .iscAbs],
   [.two .beq, .two .sbcIndY, .one .unlistedF2, .two .iscIndY, .one .unlistedF4, .two .sbcZpX, .two .incZpX, .two .iscZpX,
     .one .sed, .three .sbcAbsY, .one .unlistedFA, .three .iscAbsY, .one .unlistedFC, .three .sbcAbsX, .three .incAbsX, .three .iscAbsX]]

/-- The entry of an opcode byte. Every byte has one (30_encoding.md R84), so the two defaults are never taken. -/
def entryOf (op : Byte) : Entry :=
  (opcodeMatrix.getD (op.toNat / 16) []).getD (op.toNat % 16) (.one .unlisted02)

/-- How many operand bytes follow the opcode byte (30_encoding.md R71). -/
def Entry.operandBytes : Entry → Nat
  | .one _ => 0
  | .two _ => 1
  | .three _ => 2

/-- Why a list of bytes holds no whole instruction. No byte value is itself rejected (30_encoding.md R84). -/
inductive DecodeError where
  /-- There is no opcode byte. -/
  | empty
  /-- The list ends before the operand bytes of this opcode. -/
  | truncated (op : Byte)
deriving DecidableEq, Repr

/-- Decode the instruction at the head of a list of bytes and give the rest of the list (30_encoding.md R70, R73, R84). -/
def decode : List Byte → Except DecodeError (Instr × List Byte)
  | [] => .error .empty
  | op :: rest =>
    match entryOf op, rest with
    | .one i, _ => .ok (i, rest)
    | .two mk, b1 :: rest => .ok (mk b1, rest)
    | .three mk, b1 :: b2 :: rest => .ok (mk (join b2 b1), rest)
    | _, _ => .error (.truncated op)

/-- The operand bytes of an addressing mode, in stream order, low byte first (30_encoding.md R71, R73). -/
def Operand.bytes : Operand → List Byte
  | .implied | .accumulator => []
  | .memory (.imm b) | .memory (.zp b) | .memory (.zpX b) | .memory (.zpY b)
  | .memory (.indX b) | .memory (.indY b) | .relative b => [b]
  | .memory (.abs a) | .memory (.absX a) | .memory (.absY a) | .indirect a => [lo a, hi a]

/-- The bytes of an instruction, as they lie in memory: the opcode byte, then the operand bytes (30_encoding.md R70, R71). -/
def encode (i : Instr) : List Byte := i.opcode :: i.operand.bytes

/-- The first three bytes of an instruction whose bits are `w`, bit 0 the least significant bit of the first byte; the bits
from `nbits` on are 0. -/
def tableBytes (nbits w : Nat) : List Byte :=
  let v := w % 2 ^ nbits
  [BitVec.ofNat 8 v, BitVec.ofNat 8 (v / 256), BitVec.ofNat 8 (v / 65536)]

/-- What the decoder reads from an instruction whose bits are `w`, numbered as spec/opcode_table.json numbers them. -/
def decodeTableWord (nbits w : Nat) : Option Instr :=
  match decode (tableBytes nbits w) with
  | .ok (i, _) => some i
  | .error _ => none

end Sys2Proof
end

