-- ==== Sys2Proof/Machine/Fetch.lean ====
section
/-!
DEFINITION. Fetching an instruction: the opcode byte at PC and the operand bytes after it, one read each, in order
(00_scope.md R8; 30_encoding.md R70, R73; 20_memory.md R60); and placing one where the fetch finds it.
-/

namespace Sys2Proof.Machine

/-- How many bytes of an instruction the fetch reads: all, but for the last byte of a JSR, which JSR reads itself after its
pushes (48_branch_jump.md R176; 20_memory.md R60). -/
def fetchLength (i : Instr) : Nat := if i.mnemonic = .jsr then 2 else i.length

/-- Read and decode the instruction at PC. The addresses of the operand bytes wrap modulo 65536 (10_state.md R13). PC is not
moved: it stays the address of the opcode byte until the instruction assigns it. The second operand byte of a JSR is decoded
without a bus access; the access is JSR's own (`fetchLength`, log 10). -/
def fetch (s : State) : Instr × State :=
  let op := read s.pc s
  match entryOf op.1 with
  | .one i => (i, op.2)
  | .two mk =>
    let b1 := read (s.pc + 1) op.2
    (mk b1.1, b1.2)
  | .three mk =>
    let b1 := read (s.pc + 1) op.2
    let b2 := read (s.pc + 2) b1.2
    let i := mk (join b2.1 b1.1)
    (i, if i.mnemonic = .jsr then b1.2 else b2.2)

/-- Let the byte at an address be `v`, from outside the machine: the cell holds it, and if a device answers at that address,
plain memory answers there instead. -/
def placeByte (a : Addr) (v : Byte) (s : State) : State :=
  { s with
    mem := s.mem.write (cell a) v
    cfg := if isDevice s a then { s.cfg with busMap := ⟨cell a, cell a, .memory⟩ :: s.cfg.busMap } else s.cfg }

/-- Let no event keep the next step from fetching: no poll result, and reset not asserted in the levels the step will see. -/
def clearEvents (s : State) : State :=
  { s with
    takeInt := .none
    lines := { s.lines with reset := false }
    inputs := match s.inputs with
      | [] => []
      | l :: rest => { l with reset := false } :: rest }

/-- The instruction whose bits are `w` (the bits from `nbits` on zero) at PC, ready to be fetched by the next step. -/
def placeInstr (nbits w : Nat) (s : State) : State :=
  match tableBytes nbits w with
  | [b0, b1, b2] => clearEvents (placeByte (s.pc + 2) b2 (placeByte (s.pc + 1) b1 (placeByte s.pc b0 s)))
  | _ => s

end Sys2Proof.Machine
end

