-- ==== Sys2Proof/Machine/Step.lean ====
section
/-!
DEFINITION. One step of the machine (00_scope.md R8), and placing an instruction where the next step fetches.
-/

namespace Sys2Proof.Machine

/-- One step (00_scope.md R8): sample the interrupt inputs; if reset is asserted, the reset sequence (60_exceptions.md R223);
else the interrupt the previous poll found (R226); else fetch and execute one instruction, serve an OAM DMA stall and poll
(R230). -/
def step (s₀ : State) : Host.Outcome State Fault Refusal :=
  let s := sampleLines s₀
  if s.lines.reset then finish (resetSequence s)
  else match s.takeInt with
    | .nmi => finish (interruptSequence true s)
    | .irq => finish (interruptSequence false s)
    | .none =>
      let f := fetch s
      match exec f.1 f.2 with
      | .next t => .next (completeInstr f.1.mnemonic f.2 t)
      | .fault r => .fault r
      | .refused r => .refused r

/-- The state with an instruction stored where `step` fetches its next one (log 4). -/
def State.withFetchWord (s : State) (nbits w : Nat) : State := placeInstr nbits w s

end Sys2Proof.Machine
end

