-- ==== Sys2Proof/Machine/Timing.lean ====
section
/-!
DEFINITION. The spec's tables of effective addresses (40_addressing_modes.md R104), of dummy accesses
(70_reset_and_hazards.md R275) and of cycle counts (R281), apart from the machine: no step reads them. The machine makes the
accesses and counts one cycle for each; statements compare the two.
-/

namespace Sys2Proof.Machine

/-- The effective address of a mode, from the table of 40_addressing_modes.md R104; pointer bytes lie in page $00, so they are
bytes of memory. `Machine.address` gives it together with the accesses made on the way. -/
def effective (m : MemOperand) (s : State) : Addr :=
  match m with
  | .imm _ => s.pc + 1
  | .zp b => zext b
  | .zpX b => zext (b + s.x)
  | .zpY b => zext (b + s.y)
  | .abs a => a
  | .absX a => a + zext s.x
  | .absY a => a + zext s.y
  | .indX b => join (byteAt s (zext (b + s.x + 1))) (byteAt s (zext (b + s.x)))
  | .indY b => join (byteAt s (zext (b + 1))) (byteAt s (zext b)) + zext s.y

/-- The dummy accesses of an operand on the way to its effective address, in order (70_reset_and_hazards.md R275): the unindexed
zero-page address, or the address with the uncorrected high byte, which an instruction that writes reads always and any other
only if the page is crossed. -/
def operandDummies (always : Bool) (m : MemOperand) (s : State) : List Addr :=
  let uncorrectedOf (base : Addr) (idx : Byte) :=
    if always || pageCrossed base idx then [uncorrected base idx] else []
  match m with
  | .imm _ | .zp _ | .abs _ => []
  | .zpX b | .zpY b | .indX b => [zext b]
  | .absX a => uncorrectedOf a s.x
  | .absY a => uncorrectedOf a s.y
  | .indY b => uncorrectedOf (join (byteAt s (zext (b + 1))) (byteAt s (zext b))) s.y

/-- The Cycles column of spec/opcode_table.json without its stars, by opcode byte: the high hexadecimal digit selects the row,
the low one the column; 0 for an unlisted byte (30_encoding.md R85; 49_flag_other_undocumented.md R201; C2, C3). -/
def cycleMatrix : List (List Nat) :=
  [[7, 6, 0, 8, 0, 3, 5, 5, 3, 2, 2, 2, 0, 4, 6, 6],
   [2, 5, 0, 8, 0, 4, 6, 6, 2, 4, 0, 7, 0, 4, 7, 7],
   [6, 6, 0, 8, 3, 3, 5, 5, 4, 2, 2, 2, 4, 4, 6, 6],
   [2, 5, 0, 8, 0, 4, 6, 6, 2, 4, 0, 7, 0, 4, 7, 7],
   [6, 6, 0, 8, 0, 3, 5, 5, 3, 2, 2, 2, 3, 4, 6, 6],
   [2, 5, 0, 8, 0, 4, 6, 6, 2, 4, 0, 7, 0, 4, 7, 7],
   [6, 6, 0, 8, 0, 3, 5, 5, 4, 2, 2, 2, 5, 4, 6, 6],
   [2, 5, 0, 8, 0, 4, 6, 6, 2, 4, 0, 7, 0, 4, 7, 7],
   [0, 6, 0, 6, 3, 3, 3, 3, 2, 0, 2, 0, 4, 4, 4, 4],
   [2, 6, 0, 0, 4, 4, 4, 4, 2, 5, 2, 0, 0, 5, 0, 0],
   [2, 6, 2, 6, 3, 3, 3, 3, 2, 2, 2, 0, 4, 4, 4, 4],
   [2, 5, 0, 5, 4, 4, 4, 4, 2, 4, 2, 0, 4, 4, 4, 0],
   [2, 6, 0, 8, 3, 3, 5, 5, 2, 2, 2, 2, 4, 4, 6, 6],
   [2, 5, 0, 8, 0, 4, 6, 6, 2, 4, 0, 7, 0, 4, 7, 7],
   [2, 6, 0, 8, 3, 3, 5, 5, 2, 2, 2, 0, 4, 4, 6, 6],
   [2, 5, 0, 8, 0, 4, 6, 6, 2, 4, 0, 7, 0, 4, 7, 7]]

/-- The opcode bytes whose Cycles column carries one star: one cycle more if the page is crossed (30_encoding.md R85). -/
def starredOpcodes : List Byte :=
  [0x11, 0x19, 0x1D, 0x31, 0x39, 0x3D, 0x51, 0x59, 0x5D, 0x71, 0x79, 0x7D,
   0xB1, 0xB3, 0xB9, 0xBC, 0xBD, 0xBE, 0xD1, 0xD9, 0xDD, 0xF1, 0xF9, 0xFD]

/-- Whether an operand's index crosses a page (40_addressing_modes.md R96, R97, R100; R104: no other mode can). -/
def operandCrosses (m : MemOperand) (s : State) : Bool :=
  match m with
  | .absX a => pageCrossed a s.x
  | .absY a => pageCrossed a s.y
  | .indY b => pageCrossed (join (byteAt s (zext (b + 1))) (byteAt s (zext b))) s.y
  | .imm _ | .zp _ | .zpX _ | .zpY _ | .abs _ | .indX _ => false

/-- The condition of a branch (48_branch_jump.md R166 to R173); `false` for every other mnemonic. -/
def branchCondition (m : Mnemonic) (p : Flags) : Bool :=
  (m == .bpl && !p.n) || (m == .bmi && p.n) || (m == .bvc && !p.v) || (m == .bvs && p.v) ||
  (m == .bcc && !p.c) || (m == .bcs && p.c) || (m == .bne && !p.z) || (m == .beq && p.z)

/-- The addresses of the dummy accesses of an instruction, in order: the rows `D` of the table of 70_reset_and_hazards.md R275.
An unlisted byte has no row. -/
def dummyAddresses (i : Instr) (s : State) : List Addr :=
  match i.operand with
  | .memory m =>
    match i.mnemonic with
    | .jmp => []
    | .jsr => [stackAddr s.sp]
    | .sta | .stx | .sty | .sax => operandDummies true m s
    | .inc | .dec | .asl | .lsr | .rol | .ror | .dcp | .isc | .rla | .rra | .slo | .sre =>
      operandDummies true m s ++ [effective m s]
    | _ => operandDummies false m s
  | .indirect _ => []
  | .relative offset =>
    let next := s.pc + 2
    let target := branchTarget s.pc offset
    if branchCondition i.mnemonic s.p then
      next :: (if hi target != hi next then [join (hi next) (lo target)] else [])
    else []
  | .implied | .accumulator =>
    match i.mnemonic with
    | .unlisted => []
    | .pla | .plp | .rti => [s.pc + 1, stackAddr s.sp]
    | .rts =>
      [s.pc + 1, stackAddr s.sp, join (byteAt s (stackAddr (s.sp + 2))) (byteAt s (stackAddr (s.sp + 1)))]
    | _ => [s.pc + 1]

/-- The cycles an instruction adds to its plain count (70_reset_and_hazards.md R281, C1): 1 for a starred row that crosses a page;
1 for a taken branch, 2 if it crosses a page. -/
def extraCycles (i : Instr) (s : State) : Nat :=
  match i.operand with
  | .memory m => if starredOpcodes.contains i.opcode && operandCrosses m s then 1 else 0
  | .relative offset =>
    if branchCondition i.mnemonic s.p then
      (if hi (branchTarget s.pc offset) != hi (s.pc + 2) then 2 else 1)
    else 0
  | .implied | .accumulator | .indirect _ => 0

/-- The cycle count of an instruction (70_reset_and_hazards.md R281). -/
def cyclesOf (i : Instr) (s : State) : Nat :=
  (cycleMatrix.getD (i.opcode.toNat / 16) []).getD (i.opcode.toNat % 16) 0 + extraCycles i s

end Sys2Proof.Machine
end

