-- ==== Sys2Proof/Safety.lean ====
section
/-!
DEFINITION. The terms the statements use: what a safe run is, when a run has come to rest, when no dummy access stops an
instruction, what it means that only the bus saw something, and the invariant of the machine.
-/

namespace Sys2Proof.Machine

/-- The state after `n` steps is reached: no fault and no refusal on the way (00_scope.md R9: a claim about a program must show
that no fault is reached). -/
def safeFor (n : Nat) (s : State) : Prop := ∃ t, Sys2Proof.core.run n s = .next t

/-- The `HALT` predicate of the spec's examples (00_scope.md R4, D17; log 22): PC is the address of a JMP Absolute whose target is
that same address. -/
def atRest (s : State) : Bool :=
  byteAt s s.pc == 0x4C && byteAt s (s.pc + 1) == lo s.pc && byteAt s (s.pc + 2) == hi s.pc

/-- A dummy access at `a` does not stop an instruction: it is emitted, or the address has no side effects
(70_reset_and_hazards.md R275, D12). -/
def Harmless (s : State) (a : Addr) : Prop := s.cfg.dummyPolicy = .emit ∨ hasSideEffects s a = false

/-- No dummy access of `i` itself stops it; what other addresses of the platform do does not matter. -/
def NoDummyStops (i : Instr) (s : State) : Prop := ∀ a ∈ dummyAddresses i s, Harmless s a

/-- The platform admits this instruction's opcode byte (30_encoding.md R81, R82). -/
def Executable (i : Instr) (s : State) : Prop :=
  i.listed = true ∧ (i.status = .undocumented → s.cfg.admitUndocumented = true)

/-- `t` is `s` but for the time that passed and the accesses the oracle saw. -/
def SameButBus (s t : State) : Prop := t = { s with cycle := t.cycle, busLog := t.busLog }

/-- `t` is `s` but for PC, memory, a triggered DMA stall, time and the accesses the oracle saw: what a store may change. -/
def SameButStore (s t : State) : Prop :=
  t = { s with pc := t.pc, mem := t.mem, dmaStall := t.dmaStall, cycle := t.cycle, busLog := t.busLog }

/-- Every byte of memory but those of one cell reads after as it reads before. -/
def OnlyCellChanges (ea : Addr) (s t : State) : Prop := ∀ b, cell b ≠ cell ea → byteAt t b = byteAt s b

/-- Where a write is stored at all, the byte of `ea` is `v` afterwards. -/
def HoldsAt (ea : Addr) (v : Byte) (s t : State) : Prop :=
  Memory.wf s.mem = true → isWritable s ea = true → byteAt t ea = v

/-- `i` reads its operand byte `v`, changing nothing but what the bus saw, and then answers the next state `f v`. -/
def ReadsThen (i : Instr) (s : State) (f : Byte → State → State) : Prop :=
  ∃ m v s1, i.operand = .memory m ∧ readOperand m s = .ok (v, s1) ∧ SameButBus s s1 ∧ exec i s = .next (f v s1)

/-- `i` answers the next state `f`, of a state that differs from `s` only by `n` cycles and in what the bus saw. -/
def Runs (i : Instr) (s : State) (n : Nat) (f : State → State) : Prop :=
  ∃ s1, SameButBus s s1 ∧ s1.cycle = s.cycle + n ∧ exec i s = .next (f s1)

/-- `i` stores `v` at its effective address `ea` and moves on: PC passes the instruction, no register and no flag changes, no
byte of memory outside the cell of `ea` changes, the byte of `ea` is `v` where a write is stored, and a DMA stall can arise
at $4014 only. -/
def Stores (i : Instr) (s : State) (v : Byte) : Prop :=
  ∃ m ea s1 t, i.operand = .memory m ∧ address true m s = .ok (ea, s1) ∧ SameButBus s s1 ∧ exec i s = .next t ∧
    SameButStore s t ∧ t.pc = s.pc + BitVec.ofNat 16 i.length ∧ OnlyCellChanges ea s t ∧ HoldsAt ea v s t ∧
    (ea ≠ 0x4014 → t.dmaStall = s.dmaStall)

/-- `i` reads a byte `v` at its effective address `ea`, stores `f v` there, and does `g v (f v)` to registers and flags; PC
passes the instruction and everything else is as `Stores` says. -/
def Modifies (i : Instr) (s : State) (f : Byte → Byte) (g : Byte → Byte → State → State) : Prop :=
  ∃ m ea s1 t, i.operand = .memory m ∧ address true m s = .ok (ea, s1) ∧ SameButBus s s1 ∧ exec i s = .next t ∧
    SameButStore (g (readValue ea s1) (f (readValue ea s1)) s) t ∧ t.pc = s.pc + BitVec.ofNat 16 i.length ∧
    OnlyCellChanges ea s t ∧ HoldsAt ea (f (readValue ea s1)) s t ∧ (ea ≠ 0x4014 → t.dmaStall = s.dmaStall)

/-- The next step runs the instruction `i`: reset is not asserted, no interrupt was polled, and the bytes at PC, in memory and not
in a device, decode to `i`. -/
def AboutToRun (i : Instr) (s : State) : Prop :=
  (sampleLines s).lines.reset = false ∧ s.takeInt = .none ∧
    (∃ rest, decode [byteAt s s.pc, byteAt s (s.pc + 1), byteAt s (s.pc + 2)] = .ok (i, rest)) ∧
    ∀ k, k < i.length → isDevice s (s.pc + BitVec.ofNat 16 k) = false

/-- The state in which an instruction executes, its bytes fetched: the interrupt inputs are sampled and a cycle has passed for
each byte the fetch reads. -/
def fetched (i : Instr) (s : State) : State :=
  { sampleLines s with cycle := s.cycle + fetchLength i }

/-- `t` is `s` with a handler entered (60_exceptions.md R226; 49_flag_other_undocumented.md R192): the return address and the
status byte with B = `b` lie on the stack, SP is three lower, I is set, the poll result is gone, PC comes from the vector (its
value is said where the vector lies in memory), and nothing else changes but the NMI latch, time and what the bus saw. -/
def Entered (ret : Addr) (b : Bool) (vector : Addr) (s t : State) : Prop :=
  t = { s with
    sp := s.sp - 3, p := { s.p with i := true }, takeInt := .none, pc := t.pc, mem := t.mem,
    nmiPending := t.nmiPending, cycle := t.cycle, busLog := t.busLog } ∧
  (∀ c, cell c ≠ cell (stackAddr s.sp) → cell c ≠ cell (stackAddr (s.sp - 1)) →
    cell c ≠ cell (stackAddr (s.sp - 2)) → byteAt t c = byteAt s c) ∧
  (Memory.wf s.mem = true → byteAt t (stackAddr s.sp) = hi ret ∧ byteAt t (stackAddr (s.sp - 1)) = lo ret ∧
    byteAt t (stackAddr (s.sp - 2)) = statusByte b s.p) ∧
  (isDevice s vector = false → isDevice s (vector + 1) = false →
    t.pc = join (byteAt s (vector + 1)) (byteAt s vector))

/-- The same state under another policy for dummy accesses. -/
def withPolicy (d : DummyPolicy) (s : State) : State := { s with cfg := { s.cfg with dummyPolicy := d } }

/-- Every key of memory is the cell of some address: a RAM cell below $0800, a PPU register of $2000-$2007, or an address from
$4000 on (20_memory.md R44, R45). -/
def keysAreCells (m : Memory) : Prop := ∀ c ∈ m, c.1 < 0x10000 ∧ cell (BitVec.ofNat 16 c.1) = c.1

/-- The invariant of the machine between steps: memory is in canonical form and its keys are cells, no DMA stall is left
unserved, and a poll result NMI stands only while the NMI latch is set. -/
def Inv (s : State) : Prop :=
  Memory.wf s.mem = true ∧ keysAreCells s.mem ∧ s.dmaStall = 0 ∧ (s.takeInt = .nmi → s.nmiPending = true)

end Sys2Proof.Machine
end

