-- ==== Sys2Proof/Certificates/Slice0/Obligations.lean ====
section
/-!
DEFINITION. The statements for the provers. Each is about the machine for every state it names; none is about a program. Rules
that the spec marks as general knowledge (GK), as derived or as its own decision (D) are followed as they stand (log 19); where a
clause is the model's own choice, its statement names the log entry.
-/

open Sys2Proof Sys2Proof.Machine

/-! ### Encoding -/

/-- Decoding the bytes of any instruction gives it back and leaves the rest (30_encoding.md R70, R71, R73). -/
def Obligations.DecodeUndoesEncode : Prop :=
  ∀ (i : Instr) (rest : List Byte), decode (encode i ++ rest) = .ok (i, rest)

/-- What decodes is the encoding of the instruction read: no two byte strings mean one instruction (30_encoding.md R70, R72). -/
def Obligations.EncodeUndoesDecode : Prop :=
  ∀ (bs : List Byte) (i : Instr) (rest : List Byte), decode bs = .ok (i, rest) → encode i ++ rest = bs

/-- Words written out from the encoding tables, at least one of each family of the opcode table (30_encoding.md R76), of the
undocumented bytes (R78) and of the unlisted ones (R82), decode to what they stand for. -/
def Obligations.SampleWordsDecode : Prop :=
  decode [0xA9, 0x7F] = .ok (.ldaImm 0x7F, []) ∧
  decode [0xB5, 0xF0] = .ok (.ldaZpX 0xF0, []) ∧
  decode [0x8D, 0x00, 0x02] = .ok (.staAbs 0x0200, []) ∧
  decode [0x9A] = .ok (.txs, []) ∧
  decode [0x48] = .ok (.pha, []) ∧
  decode [0x28] = .ok (.plp, []) ∧
  decode [0x69, 0x01] = .ok (.adcImm 0x01, []) ∧
  decode [0xCE, 0x00, 0x03] = .ok (.decAbs 0x0300, []) ∧
  decode [0x49, 0xFF] = .ok (.eorImm 0xFF, []) ∧
  decode [0x6A] = .ok (.rorAcc, []) ∧
  decode [0xC9, 0x40] = .ok (.cmpImm 0x40, []) ∧
  decode [0xEC, 0x34, 0x12] = .ok (.cpxAbs 0x1234, []) ∧
  decode [0x24, 0x20] = .ok (.bitZp 0x20, []) ∧
  decode [0xD0, 0xFB] = .ok (.bne 0xFB, []) ∧
  decode [0x6C, 0xFF, 0x02] = .ok (.jmpInd 0x02FF, []) ∧
  decode [0x58] = .ok (.cli, []) ∧
  decode [0x00] = .ok (.brk, []) ∧
  decode [0xEA] = .ok (.nop, []) ∧
  decode [0xB3, 0x40] = .ok (.laxIndY 0x40, []) ∧
  decode [0x02] = .ok (.unlisted02, [])

/-- Every opcode byte decodes, whatever the operand bytes are, and it alone fixes the mnemonic and the length
(30_encoding.md R84, R70). -/
def Obligations.EveryOpcodeByteDecodes : Prop :=
  ∀ op b1 b2 : Byte, ∃ i rest, decode [op, b1, b2] = .ok (i, rest) ∧ i.opcode = op ∧ rest.length + i.length = 3 ∧
    ∀ c1 c2 j rest', decode [op, c1, c2] = .ok (j, rest') →
      j.mnemonic = i.mnemonic ∧ j.status = i.status ∧ j.length = i.length

/-- The three classes of the 256 opcode bytes: 151 official bytes of 56 mnemonics, 56 undocumented bytes of 12 mnemonics, 49
unlisted bytes (30_encoding.md R74). -/
def Obligations.OpcodeClassCounts : Prop :=
  let rows := (List.range 256).filterMap (decodeTableWord 24)
  let official := rows.filter fun i => i.status == .official
  let undocumented := rows.filter fun i => i.status == .undocumented
  official.length = 151 ∧ (official.map Instr.mnemonic).eraseDups.length = 56 ∧
    undocumented.length = 56 ∧ (undocumented.map Instr.mnemonic).eraseDups.length = 12 ∧
    (rows.filter fun i => i.status == .unlisted).length = 49 ∧ rows.length = 256

/-! ### Memory -/

/-- Internal RAM: an access at any address below $2000 reaches cell `a & $07FF`; a read gives the last byte written, through any
mirror, has no side effect, and a write leaves the other cells alone (20_memory.md R44). -/
def Obligations.RamIsMirrored : Prop :=
  ∀ (s : State) (a b : Addr) (v : Byte), a.toNat < 0x2000 → b.toNat < 0x2000 →
    (afterRead a s).busLog = s.busLog ∧ (write a v s).busLog = s.busLog ∧
    (a &&& 0x07FF = b &&& 0x07FF → readValue b s = readValue a s ∧
      (Memory.wf s.mem = true → readValue b (write a v s) = v)) ∧
    (a &&& 0x07FF ≠ b &&& 0x07FF → readValue b (write a v s) = readValue b s)

/-- The PPU registers: an access in $2000-$3FFF is the access at `$2000 + (a & 7)`, handed to the Bus oracle where a device
answers (20_memory.md R45). -/
def Obligations.PpuRegistersAreMirrored : Prop :=
  ∀ (s : State) (a : Addr) (v : Byte), 0x2000 ≤ a.toNat → a.toNat < 0x4000 →
    readValue a s = readValue (0x2000 + (a &&& 7)) s ∧ write a v s = write (0x2000 + (a &&& 7)) v s ∧
    (isDevice s a = true →
      (afterRead a s).busLog = .read (0x2000 + (a &&& 7)) :: s.busLog ∧
      (write a v s).busLog = .write (0x2000 + (a &&& 7)) v :: s.busLog ∧ (write a v s).mem = s.mem)

/-- A write changes the one cell of its address, and only where a write is stored; it changes no register
(20_memory.md R42, R56). -/
def Obligations.WriteChangesOneCell : Prop :=
  ∀ (a : Addr) (v : Byte) (s : State), SameButStore s (write a v s) ∧ (write a v s).pc = s.pc ∧
    OnlyCellChanges a s (write a v s) ∧ HoldsAt a v s (write a v s) ∧
    (isWritable s a = false → (write a v s).mem = s.mem) ∧
    (Memory.wf s.mem = true → Memory.wf (write a v s).mem = true)

/-- Sixteen-bit reads: the low byte first and at the lower address; the high byte from the next address (Read16), from page $00
(Read16ZP) or from the same page (Read16Page) (20_memory.md R48, R49, R50). -/
def Obligations.PointerReads : Prop :=
  ∀ (s : State) (a : Addr) (z : Byte),
    read16ZP z s = (join (byteAt s (zext (z + 1))) (byteAt s (zext z)), { s with cycle := s.cycle + 2 }) ∧
    (isDevice s a = false → isDevice s (a + 1) = false →
      read16 a s = (join (byteAt s (a + 1)) (byteAt s a), { s with cycle := s.cycle + 2 })) ∧
    (isDevice s a = true → isDevice s (a + 1) = true →
      (read16 a s).2.busLog = .read (physical (a + 1)) :: .read (physical a) :: s.busLog) ∧
    (lo a ≠ 0xFF → read16Page a s = read16 a s) ∧
    (lo a = 0xFF → isDevice s a = false → isDevice s (a - 0xFF) = false →
      read16Page a s = (join (byteAt s (a - 0xFF)) (byteAt s a), { s with cycle := s.cycle + 2 }))

/-! ### The stack and the status byte -/

/-- A push writes `$0100 + SP`, always in page $01, then takes 1 from SP modulo 256 (10_state.md R25, R14). -/
def Obligations.PushStoresAndDecrements : Prop :=
  ∀ (v : Byte) (s : State),
    (stackAddr s.sp).toNat = 0x100 + s.sp.toNat ∧ (push v s).sp = s.sp - 1 ∧
    push v s = { s with sp := s.sp - 1, mem := (push v s).mem, cycle := s.cycle + 1 } ∧
    OnlyCellChanges (stackAddr s.sp) s (push v s) ∧ HoldsAt (stackAddr s.sp) v s (push v s)

/-- A pull adds 1 to SP modulo 256, then reads `$0100 + SP`; it undoes a push (10_state.md R26). -/
def Obligations.PullUndoesPush : Prop :=
  ∀ (v : Byte) (s : State),
    pull s = (byteAt s (stackAddr (s.sp + 1)), { s with sp := s.sp + 1, cycle := s.cycle + 1 }) ∧
    (Memory.wf s.mem = true → (pull (push v s)).1 = v ∧ (pull (push v s)).2.sp = s.sp)

/-- `StatusByte(b)` as a sum; `SetStatus` reads the six flags back and drops bits 5 and 4, so PHP after PLP pushes them as 1
(10_state.md R27, R28). -/
def Obligations.StatusByteAndSetStatus : Prop :=
  (∀ (b : Bool) (p : Flags), (statusByte b p).toNat =
    p.n.toNat * 128 + p.v.toNat * 64 + 32 + b.toNat * 16 + p.d.toNat * 8 + p.i.toNat * 4 + p.z.toNat * 2 + p.c.toNat) ∧
  (∀ (b : Byte) (s : State), setStatus b s = { s with p :=
    { n := b.getLsbD 7, v := b.getLsbD 6, d := b.getLsbD 3, i := b.getLsbD 2, z := b.getLsbD 1, c := b.getLsbD 0 } }) ∧
  (∀ (b : Bool) (p : Flags), flagsOfByte (statusByte b p) = p) ∧
  (∀ b : Byte, statusByte true (flagsOfByte b) = b ||| 0x30)

/-- `SetNZ`: N is bit 7 and Z says zero, both of the 8-bit result; never both 1 after it, though PLP and BIT can make them so
(10_state.md R23). -/
def Obligations.NegativeAndZeroOfResult : Prop :=
  (∀ (v : Byte) (s : State), setNZ v s = { s with p := { s.p with n := v.getLsbD 7, z := v == 0 } }) ∧
  (∀ (v : Byte) (s : State), ¬((setNZ v s).p.n = true ∧ (setNZ v s).p.z = true)) ∧
  (∃ (v : Byte) (s : State), (setStatus v s).p.n = true ∧ (setStatus v s).p.z = true) ∧
  (∃ (v : Byte) (s : State), (bitTest v s).p.n = true ∧ (bitTest v s).p.z = true)

/-- No instruction outside the flag writers' table changes a flag (10_state.md R29; that each completes is stated elsewhere). -/
def Obligations.OnlyListedInstructionsWriteFlags : Prop :=
  ∀ (i : Instr) (s t : State), exec i s = .next t →
    (i.mnemonic ∈ [.sta, .stx, .sty, .txs, .pha, .php, .bpl, .bmi, .bvc, .bvs, .bcc, .bcs, .bne, .beq, .jmp, .jsr, .rts,
        .nop, .sax] → t.p = s.p) ∧
    (i.mnemonic ∈ [.clc, .sec, .cli, .sei, .clv, .cld, .sed, .brk] → t.p.n = s.p.n ∧ t.p.z = s.p.z) ∧
    (i.mnemonic ∉ [.adc, .sbc, .bit, .clv, .plp, .rti, .arr, .isc, .rra] → t.p.v = s.p.v) ∧
    (i.mnemonic ∉ [.cld, .sed, .plp, .rti] → t.p.d = s.p.d) ∧
    (i.mnemonic ∉ [.cli, .sei, .plp, .rti, .brk] → t.p.i = s.p.i) ∧
    (i.mnemonic ∉ [.adc, .sbc, .asl, .lsr, .rol, .ror, .cmp, .cpx, .cpy, .clc, .sec, .plp, .rti, .anc, .alr, .arr, .axs,
        .dcp, .isc, .rla, .rra, .slo, .sre] → t.p.c = s.p.c)

/-- D has no effect: two states that differ in D alone go to states that differ in D at most, for every instruction that does
not push the status byte (10_state.md R20; 43_arithmetic.md R137 item 6). -/
def Obligations.DecimalFlagHasNoEffect : Prop :=
  ∀ (i : Instr) (s t : State) (d : Bool), i.mnemonic ≠ .php → i.mnemonic ≠ .brk → exec i s = .next t →
    ∃ d', exec i { s with p := { s.p with d := d } } = .next { t with p := { t.p with d := d' } }

/-! ### Addressing modes -/

/-- Every mode that names a data byte gives the effective address of the table of 40_addressing_modes.md R104, and writes no
register, no flag and no memory on the way (R105). -/
def Obligations.EffectiveAddresses : Prop :=
  ∀ (always : Bool) (m : MemOperand) (s : State), (∀ a ∈ operandDummies always m s, Harmless s a) →
    ∃ t, address always m s = .ok (effective m s, t) ∧ SameButBus s t

/-- The operand byte: the immediate byte itself, or the byte of memory at the effective address (40_addressing_modes.md R90, R91;
20_memory.md R41). -/
def Obligations.OperandBytes : Prop :=
  ∀ (m : MemOperand) (s : State), (∀ a ∈ operandDummies false m s, Harmless s a) →
    ∃ v t, readOperand m s = .ok (v, t) ∧ SameButBus s t ∧ (∀ b, m = .imm b → v = b) ∧
      ((∀ b, m ≠ .imm b) → isDevice s (effective m s) = false → v = byteAt s (effective m s))

/-- Index arithmetic: a zero-page index stays in page $00, a 16-bit index is unsigned and wraps at 65536, and the page is crossed
exactly when the low byte and the index reach 256 (40_addressing_modes.md R93, R94, R96, R97, R100). -/
def Obligations.IndexArithmetic : Prop :=
  ∀ (s : State) (b idx : Byte) (base : Addr),
    (effective (.zpX b) s).toNat = (b.toNat + s.x.toNat) % 256 ∧
    (effective (.zpY b) s).toNat = (b.toNat + s.y.toNat) % 256 ∧
    (effective (.absX base) s).toNat = (base.toNat + s.x.toNat) % 65536 ∧
    (effective (.absY base) s).toNat = (base.toNat + s.y.toNat) % 65536 ∧
    (pageCrossed base idx = true ↔ 256 ≤ (lo base).toNat + idx.toNat) ∧
    (pageCrossed base idx = false → uncorrected base idx = base + zext idx)

/-! ### Loads, stores, transfers, stack -/

/-- LDA, LDX, LDY: the operand byte to the register, N and Z from it, nothing else but PC (41_load_store.md R110 to R112). -/
def Obligations.LoadResults : Prop :=
  ∀ (i : Instr) (s : State), NoDummyStops i s →
    (i.mnemonic = .lda → ReadsThen i s fun v u =>
      { u with a := v, p := { s.p with n := v.getLsbD 7, z := v == 0 }, pc := s.pc + BitVec.ofNat 16 i.length }) ∧
    (i.mnemonic = .ldx → ReadsThen i s fun v u =>
      { u with x := v, p := { s.p with n := v.getLsbD 7, z := v == 0 }, pc := s.pc + BitVec.ofNat 16 i.length }) ∧
    (i.mnemonic = .ldy → ReadsThen i s fun v u =>
      { u with y := v, p := { s.p with n := v.getLsbD 7, z := v == 0 }, pc := s.pc + BitVec.ofNat 16 i.length })

/-- STA, STX, STY: the register to the effective address, and no register or flag changes but PC
(41_load_store.md R113 to R115). -/
def Obligations.StoreResults : Prop :=
  ∀ (i : Instr) (s : State), NoDummyStops i s →
    (i.mnemonic = .sta → Stores i s s.a) ∧ (i.mnemonic = .stx → Stores i s s.x) ∧ (i.mnemonic = .sty → Stores i s s.y)

/-- The six transfers, with their opcode bytes: one byte, one cycle after the fetch; TXS writes no flag (42_transfer_stack.md
R120 to R125). -/
def Obligations.TransferResults : Prop :=
  decode [0xAA] = .ok (.tax, []) ∧ decode [0xA8] = .ok (.tay, []) ∧ decode [0xBA] = .ok (.tsx, []) ∧
  decode [0x8A] = .ok (.txa, []) ∧ decode [0x98] = .ok (.tya, []) ∧ decode [0x9A] = .ok (.txs, []) ∧
  ∀ s : State, Harmless s (s.pc + 1) →
    Runs .tax s 1 (fun u => { u with x := s.a, p := { s.p with n := s.a.getLsbD 7, z := s.a == 0 }, pc := s.pc + 1 }) ∧
    Runs .tay s 1 (fun u => { u with y := s.a, p := { s.p with n := s.a.getLsbD 7, z := s.a == 0 }, pc := s.pc + 1 }) ∧
    Runs .tsx s 1 (fun u => { u with x := s.sp, p := { s.p with n := s.sp.getLsbD 7, z := s.sp == 0 }, pc := s.pc + 1 }) ∧
    Runs .txa s 1 (fun u => { u with a := s.x, p := { s.p with n := s.x.getLsbD 7, z := s.x == 0 }, pc := s.pc + 1 }) ∧
    Runs .tya s 1 (fun u => { u with a := s.y, p := { s.p with n := s.y.getLsbD 7, z := s.y == 0 }, pc := s.pc + 1 }) ∧
    Runs .txs s 1 (fun u => { u with sp := s.x, pc := s.pc + 1 })

/-- PHA and PHP: the byte at `$0100 + SP`, SP one lower, no flag; PHP's byte has bits 5 and 4 set
(42_transfer_stack.md R127, R128). -/
def Obligations.PushInstructionResults : Prop :=
  ∀ (i : Instr) (v : Byte) (s : State), Harmless s (s.pc + 1) →
    (i = .pha ∧ v = s.a) ∨ (i = .php ∧ v = statusByte true s.p) →
    ∃ t, exec i s = .next t ∧ t.cycle = s.cycle + 2 ∧
      t = { s with sp := s.sp - 1, pc := s.pc + 1, mem := t.mem, cycle := t.cycle, busLog := t.busLog } ∧
      OnlyCellChanges (stackAddr s.sp) s t ∧ HoldsAt (stackAddr s.sp) v s t

/-- PLA and PLP: SP one higher, the byte there to A with N and Z, or to the six flags; the stack byte stays
(42_transfer_stack.md R129, R130). -/
def Obligations.PullInstructionResults : Prop :=
  ∀ s : State, Harmless s (s.pc + 1) →
    let v := byteAt s (stackAddr (s.sp + 1))
    Runs .pla s 3 (fun u => { u with
      a := v, p := { s.p with n := v.getLsbD 7, z := v == 0 }, sp := s.sp + 1, pc := s.pc + 1 }) ∧
    Runs .plp s 3 (fun u => { u with p := flagsOfByte v, sp := s.sp + 1, pc := s.pc + 1 })

/-! ### Arithmetic -/

/-- ADC: the binary sum of A, the operand and C; C is the carry out of bit 7, V the signed overflow, N and Z describe the result
(43_arithmetic.md R135). -/
def Obligations.AdcResult : Prop :=
  ∀ (i : Instr) (s : State), i.mnemonic = .adc → NoDummyStops i s → ReadsThen i s fun m u =>
    let sum := s.a.toNat + m.toNat + s.p.c.toNat
    let r := BitVec.ofNat 8 sum
    { u with
      a := r
      p := { s.p with
        n := r.getLsbD 7, z := r == 0, c := decide (256 ≤ sum)
        v := (s.a.getLsbD 7 == m.getLsbD 7) && (r.getLsbD 7 != s.a.getLsbD 7) }
      pc := s.pc + BitVec.ofNat 16 i.length }

/-- SBC: A minus the operand minus the inverted carry; C says that no borrow occurred, V is the signed overflow of the
subtraction (43_arithmetic.md R136). -/
def Obligations.SbcResult : Prop :=
  ∀ (i : Instr) (s : State), i.mnemonic = .sbc → NoDummyStops i s → ReadsThen i s fun m u =>
    let r := s.a - m - BitVec.ofNat 8 (!s.p.c).toNat
    { u with
      a := r
      p := { s.p with
        n := r.getLsbD 7, z := r == 0, c := decide (m.toNat + (!s.p.c).toNat ≤ s.a.toNat)
        v := (s.a.getLsbD 7 != m.getLsbD 7) && (r.getLsbD 7 == m.getLsbD 7) }
      pc := s.pc + BitVec.ofNat 16 i.length }

/-- V is signed overflow: after the adder, V is 1 exactly when the sum of the two's-complement numbers and the carry is outside
-128..127, and after the adder of the complement, when the difference is (43_arithmetic.md R135, R136). -/
def Obligations.OverflowIsSigned : Prop :=
  ∀ (m : Byte) (s : State),
    ((addWithCarry m s).p.v = true ↔
      s.a.toInt + m.toInt + s.p.c.toNat < -128 ∨ 127 < s.a.toInt + m.toInt + s.p.c.toNat) ∧
    ((addWithCarry (m ^^^ 0xFF) s).p.v = true ↔
      s.a.toInt - m.toInt - (!s.p.c).toNat < -128 ∨ 127 < s.a.toInt - m.toInt - (!s.p.c).toNat)

/-- INC and DEC: the byte at the effective address plus or minus 1 modulo 256, N and Z from it; C, V and the registers stay
(44_inc_dec.md R140, R143). -/
def Obligations.IncDecMemoryResults : Prop :=
  ∀ (i : Instr) (s : State), NoDummyStops i s →
    (i.mnemonic = .inc → Modifies i s (fun v => v + 1) fun _ r u =>
      { u with p := { u.p with n := r.getLsbD 7, z := r == 0 } }) ∧
    (i.mnemonic = .dec → Modifies i s (fun v => v - 1) fun _ r u =>
      { u with p := { u.p with n := r.getLsbD 7, z := r == 0 } })

/-- INX, INY, DEX, DEY, with their opcode bytes: plus or minus 1 modulo 256, N and Z from the result (44_inc_dec.md R141, R142,
R144, R145). -/
def Obligations.IncDecRegisterResults : Prop :=
  decode [0xE8] = .ok (.inx, []) ∧ decode [0xC8] = .ok (.iny, []) ∧ decode [0xCA] = .ok (.dex, []) ∧
  decode [0x88] = .ok (.dey, []) ∧
  ∀ s : State, Harmless s (s.pc + 1) →
    Runs .inx s 1 (fun u => { u with
      x := s.x + 1, p := { s.p with n := (s.x + 1).getLsbD 7, z := s.x + 1 == 0 }, pc := s.pc + 1 }) ∧
    Runs .iny s 1 (fun u => { u with
      y := s.y + 1, p := { s.p with n := (s.y + 1).getLsbD 7, z := s.y + 1 == 0 }, pc := s.pc + 1 }) ∧
    Runs .dex s 1 (fun u => { u with
      x := s.x - 1, p := { s.p with n := (s.x - 1).getLsbD 7, z := s.x - 1 == 0 }, pc := s.pc + 1 }) ∧
    Runs .dey s 1 (fun u => { u with
      y := s.y - 1, p := { s.p with n := (s.y - 1).getLsbD 7, z := s.y - 1 == 0 }, pc := s.pc + 1 })

/-- AND, ORA, EOR: A with the operand bit by bit, N and Z from the result (45_logical.md R150 to R152). -/
def Obligations.LogicalResults : Prop :=
  ∀ (i : Instr) (s : State), NoDummyStops i s →
    (i.mnemonic = .and → ReadsThen i s fun m u => { u with
      a := s.a &&& m, p := { s.p with n := (s.a &&& m).getLsbD 7, z := s.a &&& m == 0 }
      pc := s.pc + BitVec.ofNat 16 i.length }) ∧
    (i.mnemonic = .ora → ReadsThen i s fun m u => { u with
      a := s.a ||| m, p := { s.p with n := (s.a ||| m).getLsbD 7, z := s.a ||| m == 0 }
      pc := s.pc + BitVec.ofNat 16 i.length }) ∧
    (i.mnemonic = .eor → ReadsThen i s fun m u => { u with
      a := s.a ^^^ m, p := { s.p with n := (s.a ^^^ m).getLsbD 7, z := s.a ^^^ m == 0 }
      pc := s.pc + BitVec.ofNat 16 i.length })

/-! ### Shifts, compares, bit test -/

/-- ASL, LSR, ROL, ROR on A: one bit; C is the bit shifted out, the bit shifted in is 0 or the old C, N and Z describe the result
(46_shift_rotate.md R155 to R158). -/
def Obligations.ShiftAccumulatorResults : Prop :=
  ∀ s : State, Harmless s (s.pc + 1) →
    Runs .aslAcc s 1 (fun u => let r := BitVec.ofNat 8 (s.a.toNat * 2); { u with
      a := r, p := { s.p with n := r.getLsbD 7, z := r == 0, c := s.a.getLsbD 7 }, pc := s.pc + 1 }) ∧
    Runs .lsrAcc s 1 (fun u => let r := BitVec.ofNat 8 (s.a.toNat / 2); { u with
      a := r, p := { s.p with n := false, z := r == 0, c := s.a.getLsbD 0 }, pc := s.pc + 1 }) ∧
    Runs .rolAcc s 1 (fun u => let r := BitVec.ofNat 8 (s.a.toNat * 2 + s.p.c.toNat); { u with
      a := r, p := { s.p with n := r.getLsbD 7, z := r == 0, c := s.a.getLsbD 7 }, pc := s.pc + 1 }) ∧
    Runs .rorAcc s 1 (fun u => let r := BitVec.ofNat 8 (s.a.toNat / 2 + s.p.c.toNat * 128); { u with
      a := r, p := { s.p with n := s.p.c, z := r == 0, c := s.a.getLsbD 0 }, pc := s.pc + 1 })

/-- ASL, LSR, ROL, ROR on memory, with the same flags (46_shift_rotate.md R155 to R158). -/
def Obligations.ShiftMemoryResults : Prop :=
  ∀ (i : Instr) (s : State) (m : MemOperand), i.operand = .memory m → NoDummyStops i s →
    (i.mnemonic = .asl → Modifies i s (fun v => BitVec.ofNat 8 (v.toNat * 2)) fun v r u =>
      { u with p := { u.p with n := r.getLsbD 7, z := r == 0, c := v.getLsbD 7 } }) ∧
    (i.mnemonic = .lsr → Modifies i s (fun v => BitVec.ofNat 8 (v.toNat / 2)) fun v r u =>
      { u with p := { u.p with n := false, z := r == 0, c := v.getLsbD 0 } }) ∧
    (i.mnemonic = .rol → Modifies i s (fun v => BitVec.ofNat 8 (v.toNat * 2 + s.p.c.toNat)) fun v r u =>
      { u with p := { u.p with n := r.getLsbD 7, z := r == 0, c := v.getLsbD 7 } }) ∧
    (i.mnemonic = .ror → Modifies i s (fun v => BitVec.ofNat 8 (v.toNat / 2 + s.p.c.toNat * 128)) fun v r u =>
      { u with p := { u.p with n := s.p.c, z := r == 0, c := v.getLsbD 0 } })

/-- CMP, CPX, CPY: C is the unsigned `register >= operand`, Z is equality, N is bit 7 of the difference; no register changes, V
stays (47_compare_bittest.md R160 to R162). -/
def Obligations.CompareResults : Prop :=
  ∀ (i : Instr) (s : State) (reg : Byte), NoDummyStops i s →
    (i.mnemonic = .cmp ∧ reg = s.a) ∨ (i.mnemonic = .cpx ∧ reg = s.x) ∨ (i.mnemonic = .cpy ∧ reg = s.y) →
    ReadsThen i s fun m u => { u with
      p := { s.p with n := (reg - m).getLsbD 7, z := decide (reg = m), c := decide (m.toNat ≤ reg.toNat) }
      pc := s.pc + BitVec.ofNat 16 i.length }

/-- BIT: Z from `A & operand`, N and V are bits 7 and 6 of the operand itself (47_compare_bittest.md R163). -/
def Obligations.BitTestResult : Prop :=
  ∀ (i : Instr) (s : State), i.mnemonic = .bit → NoDummyStops i s → ReadsThen i s fun m u => { u with
    p := { s.p with n := m.getLsbD 7, v := m.getLsbD 6, z := decide (s.a &&& m = 0) }
    pc := s.pc + BitVec.ofNat 16 i.length }

/-! ### Control flow -/

/-- The eight branches: PC to the address after the branch plus the signed offset if the condition holds, past the branch if
not; nothing else changes (48_branch_jump.md R165 to R173). -/
def Obligations.BranchResults : Prop :=
  ∀ (i : Instr) (s : State) (b : Byte) (taken : Bool), NoDummyStops i s →
    (i = .bpl b ∧ taken = !s.p.n) ∨ (i = .bmi b ∧ taken = s.p.n) ∨ (i = .bvc b ∧ taken = !s.p.v) ∨
      (i = .bvs b ∧ taken = s.p.v) ∨ (i = .bcc b ∧ taken = !s.p.c) ∨ (i = .bcs b ∧ taken = s.p.c) ∨
      (i = .bne b ∧ taken = !s.p.z) ∨ (i = .beq b ∧ taken = s.p.z) →
    ∃ t, exec i s = .next t ∧ t = { s with pc := t.pc, cycle := t.cycle, busLog := t.busLog } ∧
      (taken = true → (t.pc.toNat : Int) = (s.pc.toNat + 2 + b.toInt) % 65536) ∧ (taken = false → t.pc = s.pc + 2)

/-- JMP Absolute goes to its operand; JMP Indirect reads its target low byte first, the high byte from the same page
(48_branch_jump.md R174, R175). -/
def Obligations.JumpResults : Prop :=
  ∀ (s : State) (a : Addr),
    exec (.jmpAbs a) s = .next { s with pc := a } ∧
    ∃ s1, SameButBus s s1 ∧ exec (.jmpInd a) s = .next { s1 with pc := (read16Page a s).1 } ∧
      (isDevice s a = false → isDevice s (join (hi a) (lo a + 1)) = false →
        (read16Page a s).1 = join (byteAt s (join (hi a) (lo a + 1))) (byteAt s a))

/-- JSR, in every state: `pc + 2` on the stack, high byte first, SP two lower; PC has the operand's low byte and, as its high byte,
what a read of `pc + 2` gives after the pushes: the byte that then stands in memory there, or the oracle's answer where a device supplies it; so
it is the operand where neither happened (48_branch_jump.md R176; 20_memory.md R60; that the fetch leaves this read to JSR: log
10; the oracle's answer: log 6). -/
def Obligations.JsrResult : Prop :=
  ∀ (s : State) (a : Addr),
    ∃ t, exec (.jsr a) s = .next t ∧ t.cycle = s.cycle + 4 ∧
      t = { s with sp := s.sp - 2, pc := t.pc, mem := t.mem, cycle := t.cycle, busLog := t.busLog } ∧
      (∀ c, cell c ≠ cell (stackAddr s.sp) → cell c ≠ cell (stackAddr (s.sp - 1)) → byteAt t c = byteAt s c) ∧
      (Memory.wf s.mem = true →
        byteAt t (stackAddr s.sp) = hi (s.pc + 2) ∧ byteAt t (stackAddr (s.sp - 1)) = lo (s.pc + 2)) ∧
      lo t.pc = lo a ∧
      (isDevice s (s.pc + 2) = false → hi t.pc = byteAt t (s.pc + 2) ∧ t.busLog = s.busLog) ∧
      (isDevice s (s.pc + 2) = true →
        hi t.pc = Config.busRead s.busLog (s.cycle + 3) (physical (s.pc + 2)) ∧
        t.busLog = .read (physical (s.pc + 2)) :: s.busLog) ∧
      (isDevice s (s.pc + 2) = false → byteAt s (s.pc + 2) = hi a →
        cell (s.pc + 2) ≠ cell (stackAddr s.sp) → cell (s.pc + 2) ≠ cell (stackAddr (s.sp - 1)) → t.pc = a)


/-- RTS: PC is the pulled address, low byte first, plus 1; SP two higher; nothing is erased and no flag changes
(48_branch_jump.md R177). -/
def Obligations.RtsResult : Prop :=
  ∀ s : State, NoDummyStops .rts s → Runs .rts s 5 fun u => { u with
    sp := s.sp + 2
    pc := join (byteAt s (stackAddr (s.sp + 2))) (byteAt s (stackAddr (s.sp + 1))) + 1 }

/-- RTS after JSR: SP is back and PC is the address after the JSR (48_branch_jump.md R176, R177). -/
def Obligations.RtsUndoesJsr : Prop :=
  ∀ (s : State) (a : Addr), Memory.wf s.mem = true →
    ∃ t, exec (.jsr a) s = .next t ∧ (NoDummyStops .rts t →
      ∃ u, exec .rts t = .next u ∧ u.pc = s.pc + 3 ∧
      u = { s with pc := u.pc, mem := t.mem, cycle := u.cycle, busLog := u.busLog })

/-- RTI: the six flags from the pulled byte, then PC low, then PC high, and nothing is added; SP three higher
(48_branch_jump.md R178; 60_exceptions.md R234). -/
def Obligations.RtiResult : Prop :=
  ∀ s : State, Harmless s (s.pc + 1) → Runs .rti s 5 fun u => { u with
    p := flagsOfByte (byteAt s (stackAddr (s.sp + 1)))
    sp := s.sp + 3
    pc := join (byteAt s (stackAddr (s.sp + 3))) (byteAt s (stackAddr (s.sp + 2))) }

/-- RTI after a handler was entered: PC is the pushed return address, all six flags and SP are as before the entry, whatever B
was pushed (48_branch_jump.md R178, R179; 60_exceptions.md R226). -/
def Obligations.RtiUndoesEntry : Prop :=
  ∀ (s : State) (ret vector : Addr) (b : Bool), NoDummyStops .rti (enterHandler ret b vector s) → Memory.wf s.mem = true →
    ∃ u, exec .rti (enterHandler ret b vector s) = .next u ∧ u.pc = ret ∧
      u = { s with pc := u.pc, mem := (enterHandler ret b vector s).mem, takeInt := .none,
                   cycle := u.cycle, busLog := u.busLog }

/-- The flag instructions, with their opcode bytes, write the one flag they name and NOP none (49_flag_other_undocumented.md
R185 to R191, R193). The interrupt poll of R187 and R188 is stated in `PollAfterInstruction`. -/
def Obligations.FlagInstructionResults : Prop :=
  decode [0x18] = .ok (.clc, []) ∧ decode [0x38] = .ok (.sec, []) ∧ decode [0x58] = .ok (.cli, []) ∧
  decode [0x78] = .ok (.sei, []) ∧ decode [0xB8] = .ok (.clv, []) ∧ decode [0xD8] = .ok (.cld, []) ∧
  decode [0xF8] = .ok (.sed, []) ∧ decode [0xEA] = .ok (.nop, []) ∧
  ∀ s : State, Harmless s (s.pc + 1) →
    Runs .clc s 1 (fun u => { u with p := { s.p with c := false }, pc := s.pc + 1 }) ∧
    Runs .sec s 1 (fun u => { u with p := { s.p with c := true }, pc := s.pc + 1 }) ∧
    Runs .cli s 1 (fun u => { u with p := { s.p with i := false }, pc := s.pc + 1 }) ∧
    Runs .sei s 1 (fun u => { u with p := { s.p with i := true }, pc := s.pc + 1 }) ∧
    Runs .clv s 1 (fun u => { u with p := { s.p with v := false }, pc := s.pc + 1 }) ∧
    Runs .cld s 1 (fun u => { u with p := { s.p with d := false }, pc := s.pc + 1 }) ∧
    Runs .sed s 1 (fun u => { u with p := { s.p with d := true }, pc := s.pc + 1 }) ∧
    Runs .nop s 1 (fun u => { u with pc := s.pc + 1 })

/-! ### Exceptions -/

/-- BRK enters the handler of $FFFE with B = 1 and the return address `pc + 2`, whatever I is, and reads the byte after its opcode
once; only where that discarded read is refused does it fault (49_flag_other_undocumented.md R192; 70_reset_and_hazards.md R275,
D12, D13; that the read is made under both policies where it does not fault: log 11). -/
def Obligations.BrkResult : Prop :=
  ∀ s : State,
    (Harmless s (s.pc + 1) →
      ∃ t, exec .brk s = .next t ∧ Entered (s.pc + 2) true 0xFFFE s t ∧
        t.nmiPending = s.nmiPending ∧ t.cycle = s.cycle + 6 ∧
        (isDevice s 0xFFFE = false → isDevice s 0xFFFF = false →
          t.busLog = if isDevice s (s.pc + 1) then .read (physical (s.pc + 1)) :: s.busLog else s.busLog)) ∧
    (s.cfg.dummyPolicy = .refuseOnDevice → hasSideEffects s (s.pc + 1) = true →
      exec .brk s = .fault (.deviceDummyAccess (s.pc + 1)))


/-- A step after a poll that found NMI or IRQ is the interrupt sequence: the handler of $FFFA or $FFFE with B = 0 and the address
of the instruction that would have run next, in 7 cycles; NMI clears its latch (60_exceptions.md R226). Only a discarded
read at PC that is refused stops it (70_reset_and_hazards.md R275). That the latch is clear
even if this step's own sample brings a new NMI edge is the model's choice (log 26). -/
def Obligations.InterruptSequenceResult : Prop :=
  ∀ s : State, (sampleLines s).lines.reset = false →
    (s.takeInt ≠ .none → s.cfg.dummyPolicy = .refuseOnDevice → hasSideEffects s s.pc = true →
      step s = .fault (.deviceDummyAccess s.pc)) ∧
    (s.takeInt = .nmi → Harmless s s.pc → ∃ t, step s = .next t ∧ Entered s.pc false 0xFFFA (sampleLines s) t ∧
      t.nmiPending = false ∧ t.cycle = s.cycle + 7) ∧
    (s.takeInt = .irq → Harmless s s.pc → ∃ t, step s = .next t ∧ Entered s.pc false 0xFFFE (sampleLines s) t ∧
      t.nmiPending = (sampleLines s).nmiPending ∧ t.cycle = s.cycle + 7)

/-- A step with reset asserted is the reset sequence, whatever else is pending: D clear, I set, PC from $FFFC, latch and poll
result clear, memory untouched (60_exceptions.md R222, R223, R240); only a discarded read at PC that is refused stops it. The cycle
counter starts at 0 (70_reset_and_hazards.md
R272; log 14). That the stall is dropped and that the dummy reads of the
sequence follow the policy are the model's choices (log 12, log 17). The other registers and flags are unspecified, and nothing is
said of them. -/
def Obligations.ResetSequenceResult : Prop :=
  ∀ s : State, (sampleLines s).lines.reset = true →
    (s.cfg.dummyPolicy = .refuseOnDevice → hasSideEffects s s.pc = true →
      step s = .fault (.deviceDummyAccess s.pc)) ∧
    (Harmless s s.pc → ∃ t, step s = .next t ∧
      t.p.d = false ∧ t.p.i = true ∧ t.nmiPending = false ∧ t.takeInt = .none ∧
      t.mem = s.mem ∧ t.cycle = 0 ∧ t.dmaStall = 0 ∧ t.lines = (sampleLines s).lines ∧ t.cfg = s.cfg ∧
      (isDevice s 0xFFFC = false → isDevice s 0xFFFD = false →
        t.pc = join (byteAt s 0xFFFD) (byteAt s 0xFFFC)))

/-! ### Undocumented and unlisted bytes -/

/-- ANC, ALR, ARR, AXS where the platform admits them (49_flag_other_undocumented.md R204 to R207). -/
def Obligations.UndocumentedImmediateResults : Prop :=
  ∀ (s : State) (m : Byte), s.cfg.admitUndocumented = true →
    (∀ i : Instr, i = .ancImm0B m ∨ i = .ancImm2B m → exec i s = .next { s with
      a := s.a &&& m
      p := { s.p with n := (s.a &&& m).getLsbD 7, z := s.a &&& m == 0, c := (s.a &&& m).getLsbD 7 }
      pc := s.pc + 2 }) ∧
    exec (.alrImm m) s = .next (
      let r := BitVec.ofNat 8 ((s.a &&& m).toNat / 2)
      { s with a := r, p := { s.p with n := false, z := r == 0, c := (s.a &&& m).getLsbD 0 }, pc := s.pc + 2 }) ∧
    exec (.arrImm m) s = .next (
      let r := BitVec.ofNat 8 ((s.a &&& m).toNat / 2 + s.p.c.toNat * 128)
      { s with
        a := r
        p := { s.p with n := r.getLsbD 7, z := r == 0, c := r.getLsbD 6, v := r.getLsbD 6 ^^ r.getLsbD 5 }
        pc := s.pc + 2 }) ∧
    exec (.axsImm m) s = .next (
      let r := (s.a &&& s.x) - m
      { s with
        x := r
        p := { s.p with n := r.getLsbD 7, z := r == 0, c := decide (m.toNat ≤ (s.a &&& s.x).toNat) }
        pc := s.pc + 2 })

/-- SAX stores `A & X` and changes no register or flag; LAX loads A and X with one byte (49_flag_other_undocumented.md R208,
R209). -/
def Obligations.SaxLaxResults : Prop :=
  ∀ (i : Instr) (s : State), NoDummyStops i s → s.cfg.admitUndocumented = true →
    (i.mnemonic = .sax → Stores i s (s.a &&& s.x)) ∧
    (i.mnemonic = .lax → ReadsThen i s fun v u => { u with
      a := v, x := v, p := { s.p with n := v.getLsbD 7, z := v == 0 }, pc := s.pc + BitVec.ofNat 16 i.length })

/-- DCP, ISC, RLA, RRA, SLO, SRE: the read-modify-write, then the second operation with the new byte
(49_flag_other_undocumented.md R210 to R215). -/
def Obligations.UndocumentedModifyResults : Prop :=
  ∀ (i : Instr) (s : State), NoDummyStops i s → s.cfg.admitUndocumented = true →
    (i.mnemonic = .dcp → Modifies i s (fun v => v - 1) fun _ r u => { u with
      p := { u.p with n := (s.a - r).getLsbD 7, z := decide (s.a = r), c := decide (r.toNat ≤ s.a.toNat) } }) ∧
    (i.mnemonic = .isc → Modifies i s (fun v => v + 1) fun _ r u =>
      let d := s.a - r - BitVec.ofNat 8 (!s.p.c).toNat
      { u with a := d, p := { u.p with
        n := d.getLsbD 7, z := d == 0, c := decide (r.toNat + (!s.p.c).toNat ≤ s.a.toNat)
        v := (s.a.getLsbD 7 != r.getLsbD 7) && (d.getLsbD 7 == r.getLsbD 7) } }) ∧
    (i.mnemonic = .rla → Modifies i s (fun v => BitVec.ofNat 8 (v.toNat * 2 + s.p.c.toNat)) fun v r u => { u with
      a := s.a &&& r
      p := { u.p with n := (s.a &&& r).getLsbD 7, z := s.a &&& r == 0, c := v.getLsbD 7 } }) ∧
    (i.mnemonic = .rra → Modifies i s (fun v => BitVec.ofNat 8 (v.toNat / 2 + s.p.c.toNat * 128)) fun v r u =>
      let sum := s.a.toNat + r.toNat + (v.getLsbD 0).toNat
      let q := BitVec.ofNat 8 sum
      { u with a := q, p := { u.p with
        n := q.getLsbD 7, z := q == 0, c := decide (256 ≤ sum)
        v := (s.a.getLsbD 7 == r.getLsbD 7) && (q.getLsbD 7 != s.a.getLsbD 7) } }) ∧
    (i.mnemonic = .slo → Modifies i s (fun v => BitVec.ofNat 8 (v.toNat * 2)) fun v r u => { u with
      a := s.a ||| r
      p := { u.p with n := (s.a ||| r).getLsbD 7, z := s.a ||| r == 0, c := v.getLsbD 7 } }) ∧
    (i.mnemonic = .sre → Modifies i s (fun v => BitVec.ofNat 8 (v.toNat / 2)) fun v r u => { u with
      a := s.a ^^^ r
      p := { u.p with n := (s.a ^^^ r).getLsbD 7, z := s.a ^^^ r == 0, c := v.getLsbD 0 } })

/-- An undocumented byte on a platform that does not admit them is a fault that names the byte and PC (30_encoding.md R81, decision
D6). -/
def Obligations.UndocumentedNotAdmittedFaults : Prop :=
  ∀ (i : Instr) (s : State), i.status = .undocumented → s.cfg.admitUndocumented = false →
    exec i s = .fault (.undocumentedNotAdmitted i.opcode s.pc)

/-- Each of the 49 unlisted bytes is a fault that names the byte and PC, in every state (30_encoding.md R82, decision
D5). -/
def Obligations.UnlistedOpcodesFault : Prop :=
  ∀ op ∈ ([0x02, 0x04, 0x0C, 0x12, 0x14, 0x1A, 0x1C, 0x22, 0x32, 0x34, 0x3A, 0x3C, 0x42, 0x44, 0x52, 0x54, 0x5A, 0x5C,
      0x62, 0x64, 0x72, 0x74, 0x7A, 0x7C, 0x80, 0x82, 0x89, 0x8B, 0x92, 0x93, 0x9B, 0x9C, 0x9E, 0x9F, 0xAB, 0xB2, 0xBB,
      0xBF, 0xC2, 0xD2, 0xD4, 0xDA, 0xDC, 0xE2, 0xEB, 0xF2, 0xF4, 0xFA, 0xFC] : List Byte),
    ∃ i, decode [op] = .ok (i, []) ∧ i.status = .unlisted ∧ ∀ s, exec i s = .fault (.unlistedOpcode op s.pc)

/-! ### The step -/

/-- A step runs the instruction whose bytes stand at PC: it samples the inputs, fetches in one cycle a byte (JSR's last
byte excepted: log 10), executes, and adds the DMA stall and the poll (00_scope.md R8; the sampling: log 9). -/
def Obligations.StepRunsDecodedInstruction : Prop :=
  ∀ (i : Instr) (s : State), AboutToRun i s →
    step s = match exec i (fetched i s) with
      | .next t => .next (completeInstr i.mnemonic (fetched i s) t)
      | .fault r => .fault r
      | .refused r => .refused r

/-- What a step adds to an instruction: the DMA stall passes, and the poll finds NMI if latched, else IRQ if its line is active
and I is 0, where CLI, SEI and PLP are polled with the old I; BRK leaves no poll result; nothing else changes, and the
instruction itself changed neither latch nor lines (60_exceptions.md R227, R230, R231). -/
def Obligations.PollAfterInstruction : Prop :=
  ∀ (i : Instr) (s t : State), AboutToRun i s → exec i (fetched i s) = .next t →
    ∃ w, step s = .next w ∧
      w = { t with takeInt := w.takeInt, cycle := t.cycle + t.dmaStall, dmaStall := 0 } ∧
      t.nmiPending = (sampleLines s).nmiPending ∧ t.lines = (sampleLines s).lines ∧
      w.takeInt =
        if i.mnemonic = .brk then .none
        else if t.nmiPending then .nmi
        else if t.lines.irq ∧ (if i.mnemonic ∈ [.cli, .sei, .plp] then s.p.i else t.p.i) = false then .irq
        else .none

/-- The inputs: a step takes the next levels the environment supplies, and an instruction's step sets the NMI latch exactly on
the inactive-to-active transition of the line and otherwise keeps it (60_exceptions.md R224; log 9). -/
def Obligations.NmiEdgeIsLatched : Prop :=
  ∀ (s t : State) (l : Lines) (rest : List Lines), s.inputs = l :: rest → l.reset = false → s.takeInt = .none →
    step s = .next t →
    t.inputs = rest ∧ t.lines = l ∧ t.nmiPending = (s.nmiPending || (l.nmi && !s.lines.nmi))

/-- Every step keeps the invariant (memory in canonical form, its keys cells, no stall unserved, a polled NMI still latched) and
the platform's parameters (10_state.md R35; 20_memory.md R44, R45; 60_exceptions.md R224, R230). -/
def Obligations.StepKeepsInvariant : Prop :=
  ∀ s t : State, Inv s → step s = .next t → Inv t ∧ t.cfg = s.cfg

/-- The state after reset meets the invariant; that its memory lists nothing is the model's choice (log 3). -/
def Obligations.ResetMeetsInvariant : Prop := Inv State.reset

/-- The values the spec gives for reset: D, I, the latch, the poll result, PC from the reset vector (10_state.md R34), the cycle
counter at 0 (70_reset_and_hazards.md R272). -/
def Obligations.ResetValues : Prop :=
  State.reset.p.d = false ∧ State.reset.p.i = true ∧ State.reset.nmiPending = false ∧
    State.reset.takeInt = .none ∧ State.reset.cycle = 0 ∧
    State.reset.pc = join (byteAt State.reset 0xFFFD) (byteAt State.reset 0xFFFC)

/-- A step never refuses, and it faults in three cases only: the byte at PC is unlisted, or undocumented and not admitted, each
where an instruction is fetched at all, with a fault that names that byte and PC; or a dummy access with side effects under the
refusing policy (00_scope.md R9; 60_exceptions.md R220). -/
def Obligations.OnlyTheseStops : Prop :=
  ∀ s : State,
    let i := (fetch (sampleLines s)).1
    i.opcode = readValue s.pc (sampleLines s) ∧ (∀ r, step s ≠ .refused r) ∧ ∀ f, step s = .fault f →
      ((sampleLines s).lines.reset = false ∧ s.takeInt = .none ∧
        ((i.status = .unlisted ∧ f = .unlistedOpcode i.opcode s.pc) ∨
          (i.status = .undocumented ∧ s.cfg.admitUndocumented = false ∧
            f = .undocumentedNotAdmitted i.opcode s.pc))) ∨
      ∃ a, f = .deviceDummyAccess a ∧ s.cfg.dummyPolicy = .refuseOnDevice ∧ hasSideEffects s a = true


/-! ### Time and the bus -/

/-- Every listed instruction that none of its own dummy accesses stops completes, and the number of its bus accesses, fetch
included, is the spec's cycle count; where one is refused, the first such one of the spec's table is the fault (log 16)
(70_reset_and_hazards.md R275, R281; the fetch reads all its bytes but JSR's last: log 10; an access that the policy leaves out
still takes its cycle: log 16). -/
def Obligations.CycleCounts : Prop :=
  ∀ (i : Instr) (s : State), Executable i s →
    (NoDummyStops i s → ∃ t, exec i s = .next t ∧ t.cycle + fetchLength i = s.cycle + cyclesOf i s) ∧
    ∀ a, s.cfg.dummyPolicy = .refuseOnDevice → (dummyAddresses i s).find? (hasSideEffects s) = some a →
      exec i s = .fault (.deviceDummyAccess a)

/-- Where no device answers, the two policies for dummy accesses give the same step: dummy accesses change nothing
(70_reset_and_hazards.md R275; an access that the policy leaves out still takes its cycle: log 16). -/
def Obligations.DummyPoliciesAgree : Prop :=
  ∀ s : State, Memory.wf s.mem = true → (∀ a, isDevice s a = false) →
    match step (withPolicy .emit s) with
    | .next t => step (withPolicy .refuseOnDevice s) = .next (withPolicy .refuseOnDevice t)
    | .fault f => step (withPolicy .refuseOnDevice s) = .fault f
    | .refused r => step (withPolicy .refuseOnDevice s) = .refused r

/-- A write to $4014, by any instruction and in any mode, suspends the CPU for 513 cycles if it falls on an odd cycle and for 514
if on an even one. An instruction that stores, or reads, modifies and writes, at $4014 makes that write in its last cycle; the
stall passes in the same step and changes no register, flag or byte (70_reset_and_hazards.md R272, D20; that the stall is served
in the step that triggered it, and that the second write of a read-modify-write counts: log 12; the parity's origin: log 14). -/
def Obligations.OamDmaStall : Prop :=
  (∀ (a : Addr) (v : Byte) (s : State), (write a v s).dmaStall =
    if a = 0x4014 then (if s.cycle % 2 = 1 then 513 else 514) else s.dmaStall) ∧
  ∀ (i : Instr) (m : MemOperand) (s : State), i.operand = .memory m →
    i.mnemonic ∈ [.sta, .stx, .sty, .sax, .inc, .dec, .asl, .lsr, .rol, .ror, .dcp, .isc, .rla, .rra, .slo, .sre] →
    AboutToRun i s → Executable i s → NoDummyStops i (fetched i s) → effective m (fetched i s) = 0x4014 →
    let n := s.cycle + cyclesOf i (fetched i s)
    ∃ t w, exec i (fetched i s) = .next t ∧ step s = .next w ∧
      w.cycle = n + (if (n - 1) % 2 = 1 then 513 else 514) ∧
      w = { t with dmaStall := 0, takeInt := w.takeInt, cycle := w.cycle } ∧
      w.pc = s.pc + BitVec.ofNat 16 i.length ∧ OnlyCellChanges 0x4014 s w ∧
      (i.mnemonic ∈ [.sta, .stx, .sty, .sax] → w = { sampleLines s with
        pc := w.pc, mem := w.mem, dmaStall := 0, takeInt := w.takeInt, cycle := w.cycle, busLog := w.busLog })

/-- What devices see of an indexed store and of a read-modify-write: under `emit` the dummy read and the write of the old byte are
made, in order; under `refuseOnDevice` they are not made, and they fault where there are side effects
(70_reset_and_hazards.md R275, R276; C4; what a device answers and which address it sees: log 6, log 25). -/
def Obligations.DeviceAccesses : Prop :=
  ∀ (s : State) (a : Addr),
    (s.cfg.dummyPolicy = .emit → isDevice s (uncorrected a s.x) = true → isDevice s (a + zext s.x) = true →
      ∃ t, exec (.staAbsX a) s = .next t ∧
        t.busLog = .write (physical (a + zext s.x)) s.a :: .read (physical (uncorrected a s.x)) :: s.busLog) ∧
    (s.cfg.dummyPolicy = .refuseOnDevice → hasSideEffects s (uncorrected a s.x) = true →
      exec (.staAbsX a) s = .fault (.deviceDummyAccess (uncorrected a s.x))) ∧
    (s.cfg.dummyPolicy = .emit → isDevice s a = true →
      ∃ t, exec (.incAbs a) s = .next t ∧
        t.busLog = .write (physical a) (Config.busRead s.busLog s.cycle (physical a) + 1) ::
          .write (physical a) (Config.busRead s.busLog s.cycle (physical a)) :: .read (physical a) :: s.busLog) ∧
    (s.cfg.dummyPolicy = .refuseOnDevice → isDevice s a = true → hasSideEffects s a = false →
      ∃ t, exec (.incAbs a) s = .next t ∧
        t.busLog = .write (physical a) (Config.busRead s.busLog s.cycle (physical a) + 1) ::
          .read (physical a) :: s.busLog) ∧
    (s.cfg.dummyPolicy = .refuseOnDevice → hasSideEffects s a = true →
      exec (.incAbs a) s = .fault (.deviceDummyAccess a))
end

