-- ==== Sys2Proof/Laws/State.lean ====
section
/-!
SUPPORT. The fields of every named update of State, each by rfl, so that no later proof unfolds a record update.
-/

namespace Sys2Proof.Machine

@[simp] theorem setNZ_a (v : Byte) (s : State) : (setNZ v s).a = s.a := rfl
@[simp] theorem setNZ_x (v : Byte) (s : State) : (setNZ v s).x = s.x := rfl
@[simp] theorem setNZ_y (v : Byte) (s : State) : (setNZ v s).y = s.y := rfl
@[simp] theorem setNZ_sp (v : Byte) (s : State) : (setNZ v s).sp = s.sp := rfl
@[simp] theorem setNZ_pc (v : Byte) (s : State) : (setNZ v s).pc = s.pc := rfl
@[simp] theorem setNZ_p (v : Byte) (s : State) : (setNZ v s).p = { s.p with n := v.getLsbD 7, z := v == 0 } := rfl
@[simp] theorem setNZ_mem (v : Byte) (s : State) : (setNZ v s).mem = s.mem := rfl
@[simp] theorem setNZ_lines (v : Byte) (s : State) : (setNZ v s).lines = s.lines := rfl
@[simp] theorem setNZ_inputs (v : Byte) (s : State) : (setNZ v s).inputs = s.inputs := rfl
@[simp] theorem setNZ_nmiPending (v : Byte) (s : State) : (setNZ v s).nmiPending = s.nmiPending := rfl
@[simp] theorem setNZ_takeInt (v : Byte) (s : State) : (setNZ v s).takeInt = s.takeInt := rfl
@[simp] theorem setNZ_cycle (v : Byte) (s : State) : (setNZ v s).cycle = s.cycle := rfl
@[simp] theorem setNZ_dmaStall (v : Byte) (s : State) : (setNZ v s).dmaStall = s.dmaStall := rfl
@[simp] theorem setNZ_busLog (v : Byte) (s : State) : (setNZ v s).busLog = s.busLog := rfl
@[simp] theorem setNZ_freeCount (v : Byte) (s : State) : (setNZ v s).freeCount = s.freeCount := rfl
@[simp] theorem setNZ_cfg (v : Byte) (s : State) : (setNZ v s).cfg = s.cfg := rfl

@[simp] theorem setC_a (c : Bool) (s : State) : (setC c s).a = s.a := rfl
@[simp] theorem setC_x (c : Bool) (s : State) : (setC c s).x = s.x := rfl
@[simp] theorem setC_y (c : Bool) (s : State) : (setC c s).y = s.y := rfl
@[simp] theorem setC_sp (c : Bool) (s : State) : (setC c s).sp = s.sp := rfl
@[simp] theorem setC_pc (c : Bool) (s : State) : (setC c s).pc = s.pc := rfl
@[simp] theorem setC_p (c : Bool) (s : State) : (setC c s).p = { s.p with c := c } := rfl
@[simp] theorem setC_mem (c : Bool) (s : State) : (setC c s).mem = s.mem := rfl
@[simp] theorem setC_lines (c : Bool) (s : State) : (setC c s).lines = s.lines := rfl
@[simp] theorem setC_inputs (c : Bool) (s : State) : (setC c s).inputs = s.inputs := rfl
@[simp] theorem setC_nmiPending (c : Bool) (s : State) : (setC c s).nmiPending = s.nmiPending := rfl
@[simp] theorem setC_takeInt (c : Bool) (s : State) : (setC c s).takeInt = s.takeInt := rfl
@[simp] theorem setC_cycle (c : Bool) (s : State) : (setC c s).cycle = s.cycle := rfl
@[simp] theorem setC_dmaStall (c : Bool) (s : State) : (setC c s).dmaStall = s.dmaStall := rfl
@[simp] theorem setC_busLog (c : Bool) (s : State) : (setC c s).busLog = s.busLog := rfl
@[simp] theorem setC_freeCount (c : Bool) (s : State) : (setC c s).freeCount = s.freeCount := rfl
@[simp] theorem setC_cfg (c : Bool) (s : State) : (setC c s).cfg = s.cfg := rfl

@[simp] theorem setV_a (v : Bool) (s : State) : (setV v s).a = s.a := rfl
@[simp] theorem setV_x (v : Bool) (s : State) : (setV v s).x = s.x := rfl
@[simp] theorem setV_y (v : Bool) (s : State) : (setV v s).y = s.y := rfl
@[simp] theorem setV_sp (v : Bool) (s : State) : (setV v s).sp = s.sp := rfl
@[simp] theorem setV_pc (v : Bool) (s : State) : (setV v s).pc = s.pc := rfl
@[simp] theorem setV_p (v : Bool) (s : State) : (setV v s).p = { s.p with v := v } := rfl
@[simp] theorem setV_mem (v : Bool) (s : State) : (setV v s).mem = s.mem := rfl
@[simp] theorem setV_lines (v : Bool) (s : State) : (setV v s).lines = s.lines := rfl
@[simp] theorem setV_inputs (v : Bool) (s : State) : (setV v s).inputs = s.inputs := rfl
@[simp] theorem setV_nmiPending (v : Bool) (s : State) : (setV v s).nmiPending = s.nmiPending := rfl
@[simp] theorem setV_takeInt (v : Bool) (s : State) : (setV v s).takeInt = s.takeInt := rfl
@[simp] theorem setV_cycle (v : Bool) (s : State) : (setV v s).cycle = s.cycle := rfl
@[simp] theorem setV_dmaStall (v : Bool) (s : State) : (setV v s).dmaStall = s.dmaStall := rfl
@[simp] theorem setV_busLog (v : Bool) (s : State) : (setV v s).busLog = s.busLog := rfl
@[simp] theorem setV_freeCount (v : Bool) (s : State) : (setV v s).freeCount = s.freeCount := rfl
@[simp] theorem setV_cfg (v : Bool) (s : State) : (setV v s).cfg = s.cfg := rfl

@[simp] theorem setI_a (i : Bool) (s : State) : (setI i s).a = s.a := rfl
@[simp] theorem setI_x (i : Bool) (s : State) : (setI i s).x = s.x := rfl
@[simp] theorem setI_y (i : Bool) (s : State) : (setI i s).y = s.y := rfl
@[simp] theorem setI_sp (i : Bool) (s : State) : (setI i s).sp = s.sp := rfl
@[simp] theorem setI_pc (i : Bool) (s : State) : (setI i s).pc = s.pc := rfl
@[simp] theorem setI_p (i : Bool) (s : State) : (setI i s).p = { s.p with i := i } := rfl
@[simp] theorem setI_mem (i : Bool) (s : State) : (setI i s).mem = s.mem := rfl
@[simp] theorem setI_lines (i : Bool) (s : State) : (setI i s).lines = s.lines := rfl
@[simp] theorem setI_inputs (i : Bool) (s : State) : (setI i s).inputs = s.inputs := rfl
@[simp] theorem setI_nmiPending (i : Bool) (s : State) : (setI i s).nmiPending = s.nmiPending := rfl
@[simp] theorem setI_takeInt (i : Bool) (s : State) : (setI i s).takeInt = s.takeInt := rfl
@[simp] theorem setI_cycle (i : Bool) (s : State) : (setI i s).cycle = s.cycle := rfl
@[simp] theorem setI_dmaStall (i : Bool) (s : State) : (setI i s).dmaStall = s.dmaStall := rfl
@[simp] theorem setI_busLog (i : Bool) (s : State) : (setI i s).busLog = s.busLog := rfl
@[simp] theorem setI_freeCount (i : Bool) (s : State) : (setI i s).freeCount = s.freeCount := rfl
@[simp] theorem setI_cfg (i : Bool) (s : State) : (setI i s).cfg = s.cfg := rfl

@[simp] theorem setD_a (d : Bool) (s : State) : (setD d s).a = s.a := rfl
@[simp] theorem setD_x (d : Bool) (s : State) : (setD d s).x = s.x := rfl
@[simp] theorem setD_y (d : Bool) (s : State) : (setD d s).y = s.y := rfl
@[simp] theorem setD_sp (d : Bool) (s : State) : (setD d s).sp = s.sp := rfl
@[simp] theorem setD_pc (d : Bool) (s : State) : (setD d s).pc = s.pc := rfl
@[simp] theorem setD_p (d : Bool) (s : State) : (setD d s).p = { s.p with d := d } := rfl
@[simp] theorem setD_mem (d : Bool) (s : State) : (setD d s).mem = s.mem := rfl
@[simp] theorem setD_lines (d : Bool) (s : State) : (setD d s).lines = s.lines := rfl
@[simp] theorem setD_inputs (d : Bool) (s : State) : (setD d s).inputs = s.inputs := rfl
@[simp] theorem setD_nmiPending (d : Bool) (s : State) : (setD d s).nmiPending = s.nmiPending := rfl
@[simp] theorem setD_takeInt (d : Bool) (s : State) : (setD d s).takeInt = s.takeInt := rfl
@[simp] theorem setD_cycle (d : Bool) (s : State) : (setD d s).cycle = s.cycle := rfl
@[simp] theorem setD_dmaStall (d : Bool) (s : State) : (setD d s).dmaStall = s.dmaStall := rfl
@[simp] theorem setD_busLog (d : Bool) (s : State) : (setD d s).busLog = s.busLog := rfl
@[simp] theorem setD_freeCount (d : Bool) (s : State) : (setD d s).freeCount = s.freeCount := rfl
@[simp] theorem setD_cfg (d : Bool) (s : State) : (setD d s).cfg = s.cfg := rfl

@[simp] theorem loadA_a (v : Byte) (s : State) : (loadA v s).a = v := rfl
@[simp] theorem loadA_x (v : Byte) (s : State) : (loadA v s).x = s.x := rfl
@[simp] theorem loadA_y (v : Byte) (s : State) : (loadA v s).y = s.y := rfl
@[simp] theorem loadA_sp (v : Byte) (s : State) : (loadA v s).sp = s.sp := rfl
@[simp] theorem loadA_pc (v : Byte) (s : State) : (loadA v s).pc = s.pc := rfl
@[simp] theorem loadA_p (v : Byte) (s : State) : (loadA v s).p = { s.p with n := v.getLsbD 7, z := v == 0 } := rfl
@[simp] theorem loadA_mem (v : Byte) (s : State) : (loadA v s).mem = s.mem := rfl
@[simp] theorem loadA_lines (v : Byte) (s : State) : (loadA v s).lines = s.lines := rfl
@[simp] theorem loadA_inputs (v : Byte) (s : State) : (loadA v s).inputs = s.inputs := rfl
@[simp] theorem loadA_nmiPending (v : Byte) (s : State) : (loadA v s).nmiPending = s.nmiPending := rfl
@[simp] theorem loadA_takeInt (v : Byte) (s : State) : (loadA v s).takeInt = s.takeInt := rfl
@[simp] theorem loadA_cycle (v : Byte) (s : State) : (loadA v s).cycle = s.cycle := rfl
@[simp] theorem loadA_dmaStall (v : Byte) (s : State) : (loadA v s).dmaStall = s.dmaStall := rfl
@[simp] theorem loadA_busLog (v : Byte) (s : State) : (loadA v s).busLog = s.busLog := rfl
@[simp] theorem loadA_freeCount (v : Byte) (s : State) : (loadA v s).freeCount = s.freeCount := rfl
@[simp] theorem loadA_cfg (v : Byte) (s : State) : (loadA v s).cfg = s.cfg := rfl

@[simp] theorem loadX_a (v : Byte) (s : State) : (loadX v s).a = s.a := rfl
@[simp] theorem loadX_x (v : Byte) (s : State) : (loadX v s).x = v := rfl
@[simp] theorem loadX_y (v : Byte) (s : State) : (loadX v s).y = s.y := rfl
@[simp] theorem loadX_sp (v : Byte) (s : State) : (loadX v s).sp = s.sp := rfl
@[simp] theorem loadX_pc (v : Byte) (s : State) : (loadX v s).pc = s.pc := rfl
@[simp] theorem loadX_p (v : Byte) (s : State) : (loadX v s).p = { s.p with n := v.getLsbD 7, z := v == 0 } := rfl
@[simp] theorem loadX_mem (v : Byte) (s : State) : (loadX v s).mem = s.mem := rfl
@[simp] theorem loadX_lines (v : Byte) (s : State) : (loadX v s).lines = s.lines := rfl
@[simp] theorem loadX_inputs (v : Byte) (s : State) : (loadX v s).inputs = s.inputs := rfl
@[simp] theorem loadX_nmiPending (v : Byte) (s : State) : (loadX v s).nmiPending = s.nmiPending := rfl
@[simp] theorem loadX_takeInt (v : Byte) (s : State) : (loadX v s).takeInt = s.takeInt := rfl
@[simp] theorem loadX_cycle (v : Byte) (s : State) : (loadX v s).cycle = s.cycle := rfl
@[simp] theorem loadX_dmaStall (v : Byte) (s : State) : (loadX v s).dmaStall = s.dmaStall := rfl
@[simp] theorem loadX_busLog (v : Byte) (s : State) : (loadX v s).busLog = s.busLog := rfl
@[simp] theorem loadX_freeCount (v : Byte) (s : State) : (loadX v s).freeCount = s.freeCount := rfl
@[simp] theorem loadX_cfg (v : Byte) (s : State) : (loadX v s).cfg = s.cfg := rfl

@[simp] theorem loadY_a (v : Byte) (s : State) : (loadY v s).a = s.a := rfl
@[simp] theorem loadY_x (v : Byte) (s : State) : (loadY v s).x = s.x := rfl
@[simp] theorem loadY_y (v : Byte) (s : State) : (loadY v s).y = v := rfl
@[simp] theorem loadY_sp (v : Byte) (s : State) : (loadY v s).sp = s.sp := rfl
@[simp] theorem loadY_pc (v : Byte) (s : State) : (loadY v s).pc = s.pc := rfl
@[simp] theorem loadY_p (v : Byte) (s : State) : (loadY v s).p = { s.p with n := v.getLsbD 7, z := v == 0 } := rfl
@[simp] theorem loadY_mem (v : Byte) (s : State) : (loadY v s).mem = s.mem := rfl
@[simp] theorem loadY_lines (v : Byte) (s : State) : (loadY v s).lines = s.lines := rfl
@[simp] theorem loadY_inputs (v : Byte) (s : State) : (loadY v s).inputs = s.inputs := rfl
@[simp] theorem loadY_nmiPending (v : Byte) (s : State) : (loadY v s).nmiPending = s.nmiPending := rfl
@[simp] theorem loadY_takeInt (v : Byte) (s : State) : (loadY v s).takeInt = s.takeInt := rfl
@[simp] theorem loadY_cycle (v : Byte) (s : State) : (loadY v s).cycle = s.cycle := rfl
@[simp] theorem loadY_dmaStall (v : Byte) (s : State) : (loadY v s).dmaStall = s.dmaStall := rfl
@[simp] theorem loadY_busLog (v : Byte) (s : State) : (loadY v s).busLog = s.busLog := rfl
@[simp] theorem loadY_freeCount (v : Byte) (s : State) : (loadY v s).freeCount = s.freeCount := rfl
@[simp] theorem loadY_cfg (v : Byte) (s : State) : (loadY v s).cfg = s.cfg := rfl

@[simp] theorem setStatus_a (v : Byte) (s : State) : (setStatus v s).a = s.a := rfl
@[simp] theorem setStatus_x (v : Byte) (s : State) : (setStatus v s).x = s.x := rfl
@[simp] theorem setStatus_y (v : Byte) (s : State) : (setStatus v s).y = s.y := rfl
@[simp] theorem setStatus_sp (v : Byte) (s : State) : (setStatus v s).sp = s.sp := rfl
@[simp] theorem setStatus_pc (v : Byte) (s : State) : (setStatus v s).pc = s.pc := rfl
@[simp] theorem setStatus_p (v : Byte) (s : State) : (setStatus v s).p = flagsOfByte v := rfl
@[simp] theorem setStatus_mem (v : Byte) (s : State) : (setStatus v s).mem = s.mem := rfl
@[simp] theorem setStatus_lines (v : Byte) (s : State) : (setStatus v s).lines = s.lines := rfl
@[simp] theorem setStatus_inputs (v : Byte) (s : State) : (setStatus v s).inputs = s.inputs := rfl
@[simp] theorem setStatus_nmiPending (v : Byte) (s : State) : (setStatus v s).nmiPending = s.nmiPending := rfl
@[simp] theorem setStatus_takeInt (v : Byte) (s : State) : (setStatus v s).takeInt = s.takeInt := rfl
@[simp] theorem setStatus_cycle (v : Byte) (s : State) : (setStatus v s).cycle = s.cycle := rfl
@[simp] theorem setStatus_dmaStall (v : Byte) (s : State) : (setStatus v s).dmaStall = s.dmaStall := rfl
@[simp] theorem setStatus_busLog (v : Byte) (s : State) : (setStatus v s).busLog = s.busLog := rfl
@[simp] theorem setStatus_freeCount (v : Byte) (s : State) : (setStatus v s).freeCount = s.freeCount := rfl
@[simp] theorem setStatus_cfg (v : Byte) (s : State) : (setStatus v s).cfg = s.cfg := rfl

@[simp] theorem tick_a (s : State) : (tick s).a = s.a := rfl
@[simp] theorem tick_x (s : State) : (tick s).x = s.x := rfl
@[simp] theorem tick_y (s : State) : (tick s).y = s.y := rfl
@[simp] theorem tick_sp (s : State) : (tick s).sp = s.sp := rfl
@[simp] theorem tick_pc (s : State) : (tick s).pc = s.pc := rfl
@[simp] theorem tick_p (s : State) : (tick s).p = s.p := rfl
@[simp] theorem tick_mem (s : State) : (tick s).mem = s.mem := rfl
@[simp] theorem tick_lines (s : State) : (tick s).lines = s.lines := rfl
@[simp] theorem tick_inputs (s : State) : (tick s).inputs = s.inputs := rfl
@[simp] theorem tick_nmiPending (s : State) : (tick s).nmiPending = s.nmiPending := rfl
@[simp] theorem tick_takeInt (s : State) : (tick s).takeInt = s.takeInt := rfl
@[simp] theorem tick_cycle (s : State) : (tick s).cycle = s.cycle + 1 := rfl
@[simp] theorem tick_dmaStall (s : State) : (tick s).dmaStall = s.dmaStall := rfl
@[simp] theorem tick_busLog (s : State) : (tick s).busLog = s.busLog := rfl
@[simp] theorem tick_freeCount (s : State) : (tick s).freeCount = s.freeCount := rfl
@[simp] theorem tick_cfg (s : State) : (tick s).cfg = s.cfg := rfl

@[simp] theorem afterRead_a (a : Addr) (s : State) : (afterRead a s).a = s.a := rfl
@[simp] theorem afterRead_x (a : Addr) (s : State) : (afterRead a s).x = s.x := rfl
@[simp] theorem afterRead_y (a : Addr) (s : State) : (afterRead a s).y = s.y := rfl
@[simp] theorem afterRead_sp (a : Addr) (s : State) : (afterRead a s).sp = s.sp := rfl
@[simp] theorem afterRead_pc (a : Addr) (s : State) : (afterRead a s).pc = s.pc := rfl
@[simp] theorem afterRead_p (a : Addr) (s : State) : (afterRead a s).p = s.p := rfl
@[simp] theorem afterRead_mem (a : Addr) (s : State) : (afterRead a s).mem = s.mem := rfl
@[simp] theorem afterRead_lines (a : Addr) (s : State) : (afterRead a s).lines = s.lines := rfl
@[simp] theorem afterRead_inputs (a : Addr) (s : State) : (afterRead a s).inputs = s.inputs := rfl
@[simp] theorem afterRead_nmiPending (a : Addr) (s : State) : (afterRead a s).nmiPending = s.nmiPending := rfl
@[simp] theorem afterRead_takeInt (a : Addr) (s : State) : (afterRead a s).takeInt = s.takeInt := rfl
@[simp] theorem afterRead_cycle (a : Addr) (s : State) : (afterRead a s).cycle = s.cycle + 1 := rfl
@[simp] theorem afterRead_dmaStall (a : Addr) (s : State) : (afterRead a s).dmaStall = s.dmaStall := rfl
@[simp] theorem afterRead_busLog (a : Addr) (s : State) : (afterRead a s).busLog = if isDevice s a then .read (physical a) :: s.busLog else s.busLog := rfl
@[simp] theorem afterRead_freeCount (a : Addr) (s : State) : (afterRead a s).freeCount = s.freeCount := rfl
@[simp] theorem afterRead_cfg (a : Addr) (s : State) : (afterRead a s).cfg = s.cfg := rfl

@[simp] theorem write_a (a : Addr) (v : Byte) (s : State) : (write a v s).a = s.a := rfl
@[simp] theorem write_x (a : Addr) (v : Byte) (s : State) : (write a v s).x = s.x := rfl
@[simp] theorem write_y (a : Addr) (v : Byte) (s : State) : (write a v s).y = s.y := rfl
@[simp] theorem write_sp (a : Addr) (v : Byte) (s : State) : (write a v s).sp = s.sp := rfl
@[simp] theorem write_pc (a : Addr) (v : Byte) (s : State) : (write a v s).pc = s.pc := rfl
@[simp] theorem write_p (a : Addr) (v : Byte) (s : State) : (write a v s).p = s.p := rfl
@[simp] theorem write_mem (a : Addr) (v : Byte) (s : State) : (write a v s).mem = if isWritable s a then s.mem.write (cell a) v else s.mem := rfl
@[simp] theorem write_lines (a : Addr) (v : Byte) (s : State) : (write a v s).lines = s.lines := rfl
@[simp] theorem write_inputs (a : Addr) (v : Byte) (s : State) : (write a v s).inputs = s.inputs := rfl
@[simp] theorem write_nmiPending (a : Addr) (v : Byte) (s : State) : (write a v s).nmiPending = s.nmiPending := rfl
@[simp] theorem write_takeInt (a : Addr) (v : Byte) (s : State) : (write a v s).takeInt = s.takeInt := rfl
@[simp] theorem write_cycle (a : Addr) (v : Byte) (s : State) : (write a v s).cycle = s.cycle + 1 := rfl
@[simp] theorem write_dmaStall (a : Addr) (v : Byte) (s : State) : (write a v s).dmaStall = if a = 0x4014 then (if s.cycle % 2 = 1 then 513 else 514) else s.dmaStall := rfl
@[simp] theorem write_busLog (a : Addr) (v : Byte) (s : State) : (write a v s).busLog = if isDevice s a then .write (physical a) v :: s.busLog else s.busLog := rfl
@[simp] theorem write_freeCount (a : Addr) (v : Byte) (s : State) : (write a v s).freeCount = s.freeCount := rfl
@[simp] theorem write_cfg (a : Addr) (v : Byte) (s : State) : (write a v s).cfg = s.cfg := rfl

@[simp] theorem push_a (v : Byte) (s : State) : (push v s).a = s.a := rfl
@[simp] theorem push_x (v : Byte) (s : State) : (push v s).x = s.x := rfl
@[simp] theorem push_y (v : Byte) (s : State) : (push v s).y = s.y := rfl
@[simp] theorem push_sp (v : Byte) (s : State) : (push v s).sp = s.sp - 1 := rfl
@[simp] theorem push_pc (v : Byte) (s : State) : (push v s).pc = s.pc := rfl
@[simp] theorem push_p (v : Byte) (s : State) : (push v s).p = s.p := rfl
@[simp] theorem push_lines (v : Byte) (s : State) : (push v s).lines = s.lines := rfl
@[simp] theorem push_inputs (v : Byte) (s : State) : (push v s).inputs = s.inputs := rfl
@[simp] theorem push_nmiPending (v : Byte) (s : State) : (push v s).nmiPending = s.nmiPending := rfl
@[simp] theorem push_takeInt (v : Byte) (s : State) : (push v s).takeInt = s.takeInt := rfl
@[simp] theorem push_freeCount (v : Byte) (s : State) : (push v s).freeCount = s.freeCount := rfl
@[simp] theorem push_cfg (v : Byte) (s : State) : (push v s).cfg = s.cfg := rfl

@[simp] theorem advance_a (n : Nat) (s : State) : (advance n s).a = s.a := rfl
@[simp] theorem advance_x (n : Nat) (s : State) : (advance n s).x = s.x := rfl
@[simp] theorem advance_y (n : Nat) (s : State) : (advance n s).y = s.y := rfl
@[simp] theorem advance_sp (n : Nat) (s : State) : (advance n s).sp = s.sp := rfl
@[simp] theorem advance_pc (n : Nat) (s : State) : (advance n s).pc = s.pc + BitVec.ofNat 16 n := rfl
@[simp] theorem advance_p (n : Nat) (s : State) : (advance n s).p = s.p := rfl
@[simp] theorem advance_mem (n : Nat) (s : State) : (advance n s).mem = s.mem := rfl
@[simp] theorem advance_lines (n : Nat) (s : State) : (advance n s).lines = s.lines := rfl
@[simp] theorem advance_inputs (n : Nat) (s : State) : (advance n s).inputs = s.inputs := rfl
@[simp] theorem advance_nmiPending (n : Nat) (s : State) : (advance n s).nmiPending = s.nmiPending := rfl
@[simp] theorem advance_takeInt (n : Nat) (s : State) : (advance n s).takeInt = s.takeInt := rfl
@[simp] theorem advance_cycle (n : Nat) (s : State) : (advance n s).cycle = s.cycle := rfl
@[simp] theorem advance_dmaStall (n : Nat) (s : State) : (advance n s).dmaStall = s.dmaStall := rfl
@[simp] theorem advance_busLog (n : Nat) (s : State) : (advance n s).busLog = s.busLog := rfl
@[simp] theorem advance_freeCount (n : Nat) (s : State) : (advance n s).freeCount = s.freeCount := rfl
@[simp] theorem advance_cfg (n : Nat) (s : State) : (advance n s).cfg = s.cfg := rfl

@[simp] theorem poll_a (b : Bool) (s : State) : (poll b s).a = s.a := rfl
@[simp] theorem poll_x (b : Bool) (s : State) : (poll b s).x = s.x := rfl
@[simp] theorem poll_y (b : Bool) (s : State) : (poll b s).y = s.y := rfl
@[simp] theorem poll_sp (b : Bool) (s : State) : (poll b s).sp = s.sp := rfl
@[simp] theorem poll_pc (b : Bool) (s : State) : (poll b s).pc = s.pc := rfl
@[simp] theorem poll_p (b : Bool) (s : State) : (poll b s).p = s.p := rfl
@[simp] theorem poll_mem (b : Bool) (s : State) : (poll b s).mem = s.mem := rfl
@[simp] theorem poll_lines (b : Bool) (s : State) : (poll b s).lines = s.lines := rfl
@[simp] theorem poll_inputs (b : Bool) (s : State) : (poll b s).inputs = s.inputs := rfl
@[simp] theorem poll_nmiPending (b : Bool) (s : State) : (poll b s).nmiPending = s.nmiPending := rfl
@[simp] theorem poll_takeInt (b : Bool) (s : State) : (poll b s).takeInt = if s.nmiPending then .nmi else if s.lines.irq && !b then .irq else .none := rfl
@[simp] theorem poll_cycle (b : Bool) (s : State) : (poll b s).cycle = s.cycle := rfl
@[simp] theorem poll_dmaStall (b : Bool) (s : State) : (poll b s).dmaStall = s.dmaStall := rfl
@[simp] theorem poll_busLog (b : Bool) (s : State) : (poll b s).busLog = s.busLog := rfl
@[simp] theorem poll_freeCount (b : Bool) (s : State) : (poll b s).freeCount = s.freeCount := rfl
@[simp] theorem poll_cfg (b : Bool) (s : State) : (poll b s).cfg = s.cfg := rfl

@[simp] theorem serveStall_a (s : State) : (serveStall s).a = s.a := rfl
@[simp] theorem serveStall_x (s : State) : (serveStall s).x = s.x := rfl
@[simp] theorem serveStall_y (s : State) : (serveStall s).y = s.y := rfl
@[simp] theorem serveStall_sp (s : State) : (serveStall s).sp = s.sp := rfl
@[simp] theorem serveStall_pc (s : State) : (serveStall s).pc = s.pc := rfl
@[simp] theorem serveStall_p (s : State) : (serveStall s).p = s.p := rfl
@[simp] theorem serveStall_mem (s : State) : (serveStall s).mem = s.mem := rfl
@[simp] theorem serveStall_lines (s : State) : (serveStall s).lines = s.lines := rfl
@[simp] theorem serveStall_inputs (s : State) : (serveStall s).inputs = s.inputs := rfl
@[simp] theorem serveStall_nmiPending (s : State) : (serveStall s).nmiPending = s.nmiPending := rfl
@[simp] theorem serveStall_takeInt (s : State) : (serveStall s).takeInt = s.takeInt := rfl
@[simp] theorem serveStall_cycle (s : State) : (serveStall s).cycle = s.cycle + s.dmaStall := rfl
@[simp] theorem serveStall_dmaStall (s : State) : (serveStall s).dmaStall = 0 := rfl
@[simp] theorem serveStall_busLog (s : State) : (serveStall s).busLog = s.busLog := rfl
@[simp] theorem serveStall_freeCount (s : State) : (serveStall s).freeCount = s.freeCount := rfl
@[simp] theorem serveStall_cfg (s : State) : (serveStall s).cfg = s.cfg := rfl

@[simp] theorem addWithCarry_x (m : Byte) (s : State) : (addWithCarry m s).x = s.x := rfl
@[simp] theorem addWithCarry_y (m : Byte) (s : State) : (addWithCarry m s).y = s.y := rfl
@[simp] theorem addWithCarry_sp (m : Byte) (s : State) : (addWithCarry m s).sp = s.sp := rfl
@[simp] theorem addWithCarry_pc (m : Byte) (s : State) : (addWithCarry m s).pc = s.pc := rfl
@[simp] theorem addWithCarry_mem (m : Byte) (s : State) : (addWithCarry m s).mem = s.mem := rfl
@[simp] theorem addWithCarry_lines (m : Byte) (s : State) : (addWithCarry m s).lines = s.lines := rfl
@[simp] theorem addWithCarry_inputs (m : Byte) (s : State) : (addWithCarry m s).inputs = s.inputs := rfl
@[simp] theorem addWithCarry_nmiPending (m : Byte) (s : State) : (addWithCarry m s).nmiPending = s.nmiPending := rfl
@[simp] theorem addWithCarry_takeInt (m : Byte) (s : State) : (addWithCarry m s).takeInt = s.takeInt := rfl
@[simp] theorem addWithCarry_cycle (m : Byte) (s : State) : (addWithCarry m s).cycle = s.cycle := rfl
@[simp] theorem addWithCarry_dmaStall (m : Byte) (s : State) : (addWithCarry m s).dmaStall = s.dmaStall := rfl
@[simp] theorem addWithCarry_busLog (m : Byte) (s : State) : (addWithCarry m s).busLog = s.busLog := rfl
@[simp] theorem addWithCarry_freeCount (m : Byte) (s : State) : (addWithCarry m s).freeCount = s.freeCount := rfl
@[simp] theorem addWithCarry_cfg (m : Byte) (s : State) : (addWithCarry m s).cfg = s.cfg := rfl

@[simp] theorem compare_a (r m : Byte) (s : State) : (compare r m s).a = s.a := rfl
@[simp] theorem compare_x (r m : Byte) (s : State) : (compare r m s).x = s.x := rfl
@[simp] theorem compare_y (r m : Byte) (s : State) : (compare r m s).y = s.y := rfl
@[simp] theorem compare_sp (r m : Byte) (s : State) : (compare r m s).sp = s.sp := rfl
@[simp] theorem compare_pc (r m : Byte) (s : State) : (compare r m s).pc = s.pc := rfl
@[simp] theorem compare_mem (r m : Byte) (s : State) : (compare r m s).mem = s.mem := rfl
@[simp] theorem compare_lines (r m : Byte) (s : State) : (compare r m s).lines = s.lines := rfl
@[simp] theorem compare_inputs (r m : Byte) (s : State) : (compare r m s).inputs = s.inputs := rfl
@[simp] theorem compare_nmiPending (r m : Byte) (s : State) : (compare r m s).nmiPending = s.nmiPending := rfl
@[simp] theorem compare_takeInt (r m : Byte) (s : State) : (compare r m s).takeInt = s.takeInt := rfl
@[simp] theorem compare_cycle (r m : Byte) (s : State) : (compare r m s).cycle = s.cycle := rfl
@[simp] theorem compare_dmaStall (r m : Byte) (s : State) : (compare r m s).dmaStall = s.dmaStall := rfl
@[simp] theorem compare_busLog (r m : Byte) (s : State) : (compare r m s).busLog = s.busLog := rfl
@[simp] theorem compare_freeCount (r m : Byte) (s : State) : (compare r m s).freeCount = s.freeCount := rfl
@[simp] theorem compare_cfg (r m : Byte) (s : State) : (compare r m s).cfg = s.cfg := rfl

@[simp] theorem bitTest_a (m : Byte) (s : State) : (bitTest m s).a = s.a := rfl
@[simp] theorem bitTest_x (m : Byte) (s : State) : (bitTest m s).x = s.x := rfl
@[simp] theorem bitTest_y (m : Byte) (s : State) : (bitTest m s).y = s.y := rfl
@[simp] theorem bitTest_sp (m : Byte) (s : State) : (bitTest m s).sp = s.sp := rfl
@[simp] theorem bitTest_pc (m : Byte) (s : State) : (bitTest m s).pc = s.pc := rfl
@[simp] theorem bitTest_p (m : Byte) (s : State) : (bitTest m s).p = { s.p with z := s.a &&& m == 0, n := m.getLsbD 7, v := m.getLsbD 6 } := rfl
@[simp] theorem bitTest_mem (m : Byte) (s : State) : (bitTest m s).mem = s.mem := rfl
@[simp] theorem bitTest_lines (m : Byte) (s : State) : (bitTest m s).lines = s.lines := rfl
@[simp] theorem bitTest_inputs (m : Byte) (s : State) : (bitTest m s).inputs = s.inputs := rfl
@[simp] theorem bitTest_nmiPending (m : Byte) (s : State) : (bitTest m s).nmiPending = s.nmiPending := rfl
@[simp] theorem bitTest_takeInt (m : Byte) (s : State) : (bitTest m s).takeInt = s.takeInt := rfl
@[simp] theorem bitTest_cycle (m : Byte) (s : State) : (bitTest m s).cycle = s.cycle := rfl
@[simp] theorem bitTest_dmaStall (m : Byte) (s : State) : (bitTest m s).dmaStall = s.dmaStall := rfl
@[simp] theorem bitTest_busLog (m : Byte) (s : State) : (bitTest m s).busLog = s.busLog := rfl
@[simp] theorem bitTest_freeCount (m : Byte) (s : State) : (bitTest m s).freeCount = s.freeCount := rfl
@[simp] theorem bitTest_cfg (m : Byte) (s : State) : (bitTest m s).cfg = s.cfg := rfl

@[simp] theorem read_fst (a : Addr) (s : State) : (read a s).1 = readValue a s := rfl
@[simp] theorem read_snd (a : Addr) (s : State) : (read a s).2 = afterRead a s := rfl
@[simp] theorem pull_fst (s : State) : (pull s).1 = readValue (stackAddr (s.sp + 1)) { s with sp := s.sp + 1 } := rfl
@[simp] theorem pull_snd (s : State) : (pull s).2 = afterRead (stackAddr (s.sp + 1)) { s with sp := s.sp + 1 } := rfl

end Sys2Proof.Machine
end

