-- ==== Sys2Proof/Laws/Memory.lean ====
section
/-!
SUPPORT. The laws of memory as data: a read after a write, and that a write keeps the canonical form and adds no key but its
own.
-/

namespace Sys2Proof.Machine

@[simp] theorem Memory.read_nil (k : Nat) : Memory.read [] k = Memory.unlisted := rfl

/-- A write leaves every other byte alone, whatever form the memory has. -/
theorem Memory.read_write_other (m : Memory) (k j : Nat) (v : Byte) (h : j ≠ k) :
    (Memory.write m k v).read j = m.read j := by
  induction m with
  | nil => unfold Memory.write; split <;> simp [Memory.read, Ne.symm h]
  | cons c rest ih =>
    unfold Memory.write
    split
    · split <;> simp [Memory.read, Ne.symm h]
    · split
      · rename_i _ hk
        have : c.1 ≠ j := fun e => h (by rw [← e, hk])
        split <;> simp [Memory.read, this, Ne.symm h]
      · simp only [Memory.read, ih]

theorem Memory.wf_tail {c : Host.Cell} {m : Memory} (h : Memory.wf (c :: m) = true) : Memory.wf m = true := by
  cases m with
  | nil => rfl
  | cons d rest => simp only [Memory.wf, Bool.and_eq_true] at h; exact h.2

theorem Memory.wf_head {c : Host.Cell} {m : Memory} (h : Memory.wf (c :: m) = true) : c.2 ≠ Memory.unlisted := by
  cases m with
  | nil => simpa [Memory.wf] using h
  | cons d rest => simp only [Memory.wf, Bool.and_eq_true] at h; simpa using h.1.1

theorem Memory.wf_rising {c : Host.Cell} {m : Memory} (h : Memory.wf (c :: m) = true) : ∀ d ∈ m, c.1 < d.1 := by
  induction m generalizing c with
  | nil => simp
  | cons e rest ih =>
    have he : c.1 < e.1 := by simp only [Memory.wf, Bool.and_eq_true, decide_eq_true_eq] at h; exact h.1.2
    intro d hd
    rcases List.mem_cons.1 hd with rfl | hd
    · exact he
    · exact lt_trans he (ih (Memory.wf_tail h) d hd)

theorem Memory.wf_cons {c : Host.Cell} {m : Memory} (hv : c.2 ≠ Memory.unlisted) (hlt : ∀ d ∈ m, c.1 < d.1)
    (hm : Memory.wf m = true) : Memory.wf (c :: m) = true := by
  cases m with
  | nil => simpa [Memory.wf] using hv
  | cons d rest =>
    simp only [Memory.wf, Bool.and_eq_true, decide_eq_true_eq]
    exact ⟨⟨by simpa using hv, hlt d (by simp)⟩, hm⟩

/-- Below the smallest key nothing is listed. -/
theorem Memory.read_of_lt {m : Memory} {k : Nat} (h : ∀ d ∈ m, k < d.1) : m.read k = Memory.unlisted := by
  induction m with
  | nil => rfl
  | cons c rest ih =>
    have hc : c.1 ≠ k := Nat.ne_of_gt (h c (by simp))
    simp only [Memory.read, hc, if_false]
    exact ih fun d hd => h d (by simp [hd])

/-- A read after a write to the same key gives the byte written. -/
theorem Memory.read_write_same (m : Memory) (k : Nat) (v : Byte) (h : Memory.wf m = true) :
    (Memory.write m k v).read k = v := by
  induction m with
  | nil => unfold Memory.write; split <;> simp_all [Memory.read]
  | cons c rest ih =>
    have hr := Memory.wf_rising h
    unfold Memory.write
    split
    · rename_i hk
      split
      · rename_i hv
        rw [hv]
        exact Memory.read_of_lt fun d hd => by
          rcases List.mem_cons.1 hd with rfl | hd
          · exact hk
          · exact lt_trans hk (hr d hd)
      · simp [Memory.read]
    · split
      · rename_i _ hk
        split
        · rename_i hv
          rw [hv]
          exact Memory.read_of_lt fun d hd => hk ▸ hr d hd
        · simp [Memory.read]
      · rename_i _ hk
        simp only [Memory.read, hk, if_false]
        exact ih (Memory.wf_tail h)

/-- A write adds no key but its own. -/
theorem Memory.keys_write {m : Memory} {k : Nat} {v : Byte} {d : Host.Cell} (h : d ∈ Memory.write m k v) :
    d.1 = k ∨ d ∈ m := by
  induction m with
  | nil => unfold Memory.write at h; split at h <;> simp_all
  | cons c rest ih =>
    unfold Memory.write at h
    split at h
    · split at h
      · exact .inr h
      · rcases List.mem_cons.1 h with rfl | h
        · exact .inl rfl
        · exact .inr h
    · split at h
      · split at h
        · exact .inr (by simp [h])
        · rcases List.mem_cons.1 h with rfl | h
          · exact .inl rfl
          · exact .inr (by simp [h])
      · rcases List.mem_cons.1 h with rfl | h
        · exact .inr (by simp)
        · rcases ih h with h | h
          · exact .inl h
          · exact .inr (by simp [h])

/-- A write keeps the canonical form. -/
theorem Memory.wf_write (m : Memory) (k : Nat) (v : Byte) (h : Memory.wf m = true) :
    Memory.wf (Memory.write m k v) = true := by
  induction m with
  | nil => unfold Memory.write; split <;> simp_all [Memory.wf]
  | cons c rest ih =>
    have hr := Memory.wf_rising h
    unfold Memory.write
    split
    · rename_i hk
      split
      · exact h
      · rename_i hv
        exact Memory.wf_cons hv (fun d hd => by
          rcases List.mem_cons.1 hd with rfl | hd
          · exact hk
          · exact lt_trans hk (hr d hd)) h
    · split
      · rename_i _ hk
        split
        · exact Memory.wf_tail h
        · rename_i hv
          exact Memory.wf_cons hv (fun d hd => by simpa [← hk] using hr d hd) (Memory.wf_tail h)
      · rename_i hlt hk
        refine Memory.wf_cons (Memory.wf_head h) (fun d hd => ?_) (ih (Memory.wf_tail h))
        rcases Memory.keys_write hd with hd | hd
        · omega
        · exact hr d hd

/-- The later of two writes to one key counts. -/
theorem Memory.write_write (m : Memory) (k : Nat) (v w : Byte) (h : Memory.wf m = true) :
    Memory.write (Memory.write m k v) k w = Memory.write m k w := by
  induction m with
  | nil =>
    by_cases hv : v = Memory.unlisted <;> by_cases hw : w = Memory.unlisted <;> simp [Memory.write, hv, hw]
  | cons c rest ih =>
    have hr := Memory.wf_rising h
    by_cases hlt : k < c.1
    · by_cases hv : v = Memory.unlisted <;> by_cases hw : w = Memory.unlisted <;> simp [Memory.write, hlt, hv, hw]
    · by_cases hk : c.1 = k
      · subst hk
        by_cases hv : v = Memory.unlisted
        · have : Memory.write (c :: rest) c.1 v = rest := by simp [Memory.write, hv]
          rw [this]
          cases rest with
          | nil => simp [Memory.write]
          | cons d rest => simp [Memory.write, hr d (by simp)]
        · by_cases hw : w = Memory.unlisted <;> simp [Memory.write, hv, hw]
      · simp [Memory.write, hlt, hk, ih (Memory.wf_tail h)]

/-- Writing back the byte that is there changes nothing: equal memories are equal data. -/
theorem Memory.write_read (m : Memory) (k : Nat) (h : Memory.wf m = true) : m.write k (m.read k) = m := by
  induction m with
  | nil => rfl
  | cons c rest ih =>
    have hv := Memory.wf_head h
    have hr := Memory.wf_rising h
    unfold Memory.write Memory.read
    by_cases h1 : c.1 = k
    · subst h1; simp [hv]
    · simp only [h1, if_false]
      by_cases h2 : k < c.1
      · have e : Memory.read rest k = Memory.unlisted := Memory.read_of_lt fun d hd => Nat.lt_trans h2 (hr d hd)
        simp [h2, e]
      · simp [h2, ih (Memory.wf_tail h)]
end Sys2Proof.Machine
end

