-- ==== Sys2Proof/Laws/Bus.lean ====
section
/-!
SUPPORT. One lemma for each shared operation over the bus: what it can do, said once.
-/

namespace Sys2Proof.Machine

/-! ### Bytes and addresses -/

theorem join_toNat (h l : Byte) : (join h l).toNat = h.toNat * 256 + l.toNat := by
  show (h ++ l).toNat = _
  rw [BitVec.toNat_append, Nat.shiftLeft_eq, ← Nat.shiftLeft_eq, ← Nat.shiftLeft_add_eq_or_of_lt l.isLt, Nat.shiftLeft_eq]

theorem lo_toNat (a : Addr) : (lo a).toNat = a.toNat % 256 := by
  simp [lo, BitVec.extractLsb'_toNat]

theorem hi_toNat (a : Addr) : (hi a).toNat = a.toNat / 256 := by
  have := a.isLt
  simp [hi, BitVec.extractLsb'_toNat, Nat.shiftRight_eq_div_pow]
  omega

@[simp] theorem lo_join (h l : Byte) : lo (join h l) = l := by
  apply BitVec.eq_of_toNat_eq; rw [lo_toNat, join_toNat]; omega

@[simp] theorem hi_join (h l : Byte) : hi (join h l) = h := by
  apply BitVec.eq_of_toNat_eq; rw [hi_toNat, join_toNat]; omega

@[simp] theorem join_hi_lo (a : Addr) : join (hi a) (lo a) = a := by
  apply BitVec.eq_of_toNat_eq; rw [join_toNat, hi_toNat, lo_toNat]; omega

theorem zext_toNat (b : Byte) : (zext b).toNat = b.toNat := by
  simp [zext]; omega

theorem stackAddr_toNat (b : Byte) : (stackAddr b).toNat = 256 + b.toNat := by
  unfold stackAddr; rw [BitVec.toNat_add, zext_toNat]; simp; omega

/-- The key of an address as a number (20_memory.md R44, R45). -/
theorem cell_eq (a : Addr) : cell a = if a.toNat < 0x2000 then a.toNat % 0x800
    else if a.toNat < 0x4000 then 0x2000 + a.toNat % 8 else a.toNat := by
  have h8 : ∀ n : Nat, n &&& 7 = n % 8 := fun n => Nat.and_two_pow_sub_one_eq_mod n 3
  have h11 : ∀ n : Nat, n &&& 0x7FF = n % 0x800 := fun n => Nat.and_two_pow_sub_one_eq_mod n 11
  unfold cell physical
  split
  · simp [h11]
  · split
    · simp [h8]; omega
    · rfl

theorem cell_lt (a : Addr) : cell a < 0x10000 := (physical a).isLt

theorem cell_cell (a : Addr) : cell (BitVec.ofNat 16 (cell a)) = cell a := by
  have hl := cell_lt a
  rw [cell_eq (BitVec.ofNat 16 (cell a))]
  simp only [BitVec.toNat_ofNat, Nat.mod_eq_of_lt hl]
  rw [cell_eq]
  split_ifs <;> omega

theorem cell_stackAddr (b : Byte) : cell (stackAddr b) = 256 + b.toNat := by
  have := b.isLt
  rw [cell_eq, stackAddr_toNat]; split_ifs <;> omega

theorem cell_zext (b : Byte) : cell (zext b) = b.toNat := by
  have := b.isLt
  rw [cell_eq, zext_toNat]; split_ifs <;> omega

/-! ### Internal RAM is plain memory -/

theorem kindAt_ram {s : State} {a : Addr} (h : a.toNat < 0x2000) : kindAt s a = .memory := by
  simp [kindAt, h]

theorem ram_isDevice {s : State} {a : Addr} (h : a.toNat < 0x2000) : isDevice s a = false := by
  simp [isDevice, kindAt_ram h]

theorem ram_isWritable {s : State} {a : Addr} (h : a.toNat < 0x2000) : isWritable s a = true := by
  simp [isWritable, kindAt_ram h]

theorem ram_noEffects {s : State} {a : Addr} (h : a.toNat < 0x2000) : hasSideEffects s a = false := by
  simp [hasSideEffects, kindAt_ram h]

theorem stackAddr_ram (b : Byte) : (stackAddr b).toNat < 0x2000 := by
  rw [stackAddr_toNat]; have := b.isLt; omega

theorem zext_ram (b : Byte) : (zext b).toNat < 0x2000 := by
  rw [zext_toNat]; have := b.isLt; omega

theorem not_4014_of_ram {a : Addr} (h : a.toNat < 0x2000) : a ≠ 0x4014 := by
  rintro rfl; revert h; decide

/-! ### States that differ in what the bus saw -/

namespace SameButBus
variable {s t u : State}

theorem rfl' : SameButBus s s := rfl
theorem trans (h : SameButBus s t) (k : SameButBus t u) : SameButBus s u := by
  unfold SameButBus at *; rw [k, h]
theorem a (h : SameButBus s t) : t.a = s.a := by rw [h]
theorem x (h : SameButBus s t) : t.x = s.x := by rw [h]
theorem y (h : SameButBus s t) : t.y = s.y := by rw [h]
theorem sp (h : SameButBus s t) : t.sp = s.sp := by rw [h]
theorem pc (h : SameButBus s t) : t.pc = s.pc := by rw [h]
theorem p (h : SameButBus s t) : t.p = s.p := by rw [h]
theorem mem (h : SameButBus s t) : t.mem = s.mem := by rw [h]
theorem lines (h : SameButBus s t) : t.lines = s.lines := by rw [h]
theorem inputs (h : SameButBus s t) : t.inputs = s.inputs := by rw [h]
theorem nmiPending (h : SameButBus s t) : t.nmiPending = s.nmiPending := by rw [h]
theorem takeInt (h : SameButBus s t) : t.takeInt = s.takeInt := by rw [h]
theorem dmaStall (h : SameButBus s t) : t.dmaStall = s.dmaStall := by rw [h]
theorem freeCount (h : SameButBus s t) : t.freeCount = s.freeCount := by rw [h]
theorem cfg (h : SameButBus s t) : t.cfg = s.cfg := by rw [h]
theorem kindAt (h : SameButBus s t) (b : Addr) : kindAt t b = kindAt s b := by rw [h]; rfl
theorem isDevice (h : SameButBus s t) (b : Addr) : isDevice t b = isDevice s b := by rw [h]; rfl
theorem isWritable (h : SameButBus s t) (b : Addr) : isWritable t b = isWritable s b := by rw [h]; rfl
theorem hasSideEffects (h : SameButBus s t) (b : Addr) : hasSideEffects t b = hasSideEffects s b := by rw [h]; rfl
theorem byteAt (h : SameButBus s t) (b : Addr) : byteAt t b = byteAt s b := by rw [h]; rfl
theorem harmless (h : SameButBus s t) {b : Addr} (k : Harmless s b) : Harmless t b := by rw [h]; exact k
theorem effective (h : SameButBus s t) (m : MemOperand) : effective m t = effective m s := by
  rw [h]; rfl

end SameButBus

/-- A dummy access in RAM stops nothing. -/
theorem harmless_ram {s : State} {a : Addr} (h : a.toNat < 0x2000) : Harmless s a := .inr (ram_noEffects h)

theorem sameButBus_afterRead (a : Addr) (s : State) : SameButBus s (afterRead a s) := rfl
theorem sameButBus_tick (s : State) : SameButBus s (tick s) := rfl


theorem readValue_memory {a : Addr} {s : State} (h : isDevice s a = false) : readValue a s = byteAt s a := by
  simp [readValue, h]

theorem readValue_ram {a : Addr} {s : State} (h : a.toNat < 0x2000) : readValue a s = byteAt s a :=
  readValue_memory (ram_isDevice h)

/-- A read where no device answers: the byte of memory, and a cycle. -/
theorem read_memory {a : Addr} {s : State} (h : isDevice s a = false) :
    read a s = (byteAt s a, { s with cycle := s.cycle + 1 }) := by
  simp only [read, readValue, afterRead, h]
  rfl

/-- Two reads where no device answers. -/
theorem readPair_memory {l h : Addr} {s : State} (hl : isDevice s l = false) (hh : isDevice s h = false) :
    readPair l h s = (join (byteAt s h) (byteAt s l), { s with cycle := s.cycle + 2 }) := by
  have hh' : isDevice { s with cycle := s.cycle + 1 } h = false := hh
  simp only [readPair, read_memory hl, read_memory hh']
  rfl

/-- The high byte's address of `Read16Page`: the next address in the same page (20_memory.md R50). -/
theorem samePage (a : Addr) : (a &&& 0xFF00 ||| (a + 1) &&& 0x00FF : Addr) = join (hi a) (lo a + 1) := by
  have e : (a + 1 : Addr) &&& 0x00FF = zext (lo a + 1) := by
    apply BitVec.eq_of_toNat_eq
    have : ((a + 1 : Addr) &&& 0x00FF).toNat = (a + 1 : Addr).toNat % 256 := Nat.and_two_pow_sub_one_eq_mod _ 8
    rw [this, BitVec.toNat_add, zext_toNat, BitVec.toNat_add, lo_toNat]; simp
  rw [e]
  unfold join
  generalize lo a + 1 = l
  apply BitVec.eq_of_getLsbD_eq
  intro i hi
  simp only [BitVec.getLsbD_or, BitVec.getLsbD_and, BitVec.getLsbD_append, zext, BitVec.getLsbD_setWidth, Sys2Proof.hi,
    BitVec.getLsbD_extractLsb']
  have : i < 16 := hi
  interval_cases i <;> simp

/-- A dummy read that cannot stop: one cycle, and nothing changes but what the bus saw. -/
theorem dummyRead_ok {s : State} {a : Addr} (h : Harmless s a) :
    ∃ t, dummyRead a s = .ok t ∧ SameButBus s t ∧ t.cycle = s.cycle + 1 := by
  unfold dummyRead
  rcases h with h | h
  · rw [h]; exact ⟨_, rfl, sameButBus_afterRead a s, rfl⟩
  · cases s.cfg.dummyPolicy
    · exact ⟨_, rfl, sameButBus_afterRead a s, rfl⟩
    · simp only [h]; exact ⟨_, rfl, sameButBus_tick s, rfl⟩

/-- A dummy read that ends, whatever the policy: one cycle, and nothing changes but what the bus saw. -/
theorem dummyRead_inv {s t : State} {a : Addr} (h : dummyRead a s = .ok t) :
    SameButBus s t ∧ t.cycle = s.cycle + 1 := by
  unfold dummyRead at h
  split at h
  · cases h; exact ⟨sameButBus_afterRead a s, rfl⟩
  · split at h
    · cases h
    · cases h; exact ⟨sameButBus_tick s, rfl⟩

/-- A read that is both in a rule and in the table of dummy accesses either is made or faults. -/
theorem discardedRead_inv {s t : State} {a : Addr} (h : discardedRead a s = .ok t) : t = afterRead a s := by
  unfold discardedRead at h
  split at h
  · cases h; rfl
  · split at h <;> cases h; rfl

/-- Where no dummy access can stop an instruction, it is made. -/
theorem discardedRead_ok {s : State} {a : Addr} (h : Harmless s a) :
    discardedRead a s = .ok (afterRead a s) := by
  unfold discardedRead
  rcases h with h | h
  · rw [h]
  · split
    · rfl
    · rw [h]; rfl

/-! ### Writes -/

@[simp] theorem isWritable_write (a b : Addr) (v : Byte) (s : State) : isWritable (write a v s) b = isWritable s b := rfl
@[simp] theorem isDevice_write (a b : Addr) (v : Byte) (s : State) : isDevice (write a v s) b = isDevice s b := rfl

theorem sameButStore_write (a : Addr) (v : Byte) (s : State) : SameButStore s (write a v s) := rfl

theorem write_dmaStall_other {a : Addr} (h : a ≠ 0x4014) (v : Byte) (s : State) :
    (write a v s).dmaStall = s.dmaStall := if_neg h

/-- A write changes no byte outside the cell of its address. -/
theorem onlyCellChanges_write (a : Addr) (v : Byte) (s : State) : OnlyCellChanges a s (write a v s) := by
  intro b hb
  unfold byteAt
  rw [write_mem]
  split
  · exact Memory.read_write_other _ _ _ _ hb
  · rfl

/-- A read after a write to the same cell gives the byte written. -/
theorem byteAt_write_same {a b : Addr} {v : Byte} {s : State} (hw : Memory.wf s.mem = true) (h : isWritable s a = true)
    (hc : cell b = cell a) : byteAt (write a v s) b = v := by
  unfold byteAt
  rw [write_mem, h, hc]
  exact Memory.read_write_same _ _ _ hw

theorem holdsAt_write (a : Addr) (v : Byte) (s : State) : HoldsAt a v s (write a v s) :=
  fun hw h => byteAt_write_same hw h rfl

/-- A push: the byte lies at `$0100 + SP`, SP is one lower, nothing else changes but time. -/
theorem push_spec (v : Byte) (s : State) : push v s =
    { s with mem := s.mem.write (256 + s.sp.toNat) v, sp := s.sp - 1, cycle := s.cycle + 1 } := by
  unfold push write
  rw [if_neg (not_4014_of_ram (stackAddr_ram s.sp)), ram_isDevice (stackAddr_ram _), ram_isWritable (stackAddr_ram _),
    cell_stackAddr]
  rfl

/-- A pull: the byte at `$0100 + SP + 1`, SP is one higher, nothing else changes but time. -/
theorem pull_spec (s : State) : pull s =
    (byteAt s (stackAddr (s.sp + 1)), { s with sp := s.sp + 1, cycle := s.cycle + 1 }) := by
  simp [pull, read, readValue, afterRead, isDevice, kindAt_ram (stackAddr_ram _), byteAt]

/-! ### Pointers and effective addresses -/

/-- `Read16ZP` reads two bytes of RAM. -/
theorem read16ZP_spec (z : Byte) (s : State) : read16ZP z s =
    (join (byteAt s (zext (z + 1))) (byteAt s (zext z)), { s with cycle := s.cycle + 2 }) := by
  simp [read16ZP, readPair, read, readValue, afterRead, isDevice, kindAt_ram (zext_ram _), byteAt]

theorem readPair_sameButBus (l h : Addr) (s : State) :
    SameButBus s (readPair l h s).2 ∧ (readPair l h s).2.cycle = s.cycle + 2 := ⟨rfl, rfl⟩

/-- The cycles of the accesses before the operand itself: pointer and dummy reads (70_reset_and_hazards.md R275). -/
def addressCycles (always : Bool) (m : MemOperand) (s : State) : Nat :=
  match m with
  | .imm _ | .zp _ | .abs _ => 0
  | .zpX _ | .zpY _ => 1
  | .absX _ | .absY _ => if always || operandCrosses m s then 1 else 0
  | .indX _ => 3
  | .indY _ => if always || operandCrosses m s then 3 else 2

theorem indexed_ok {s : State} {always : Bool} {base : Addr} {idx : Byte}
    (h : ∀ a ∈ (if always || pageCrossed base idx then [uncorrected base idx] else []), Harmless s a) :
    ∃ t, indexed always base idx s = .ok (base + zext idx, t) ∧ SameButBus s t ∧
      t.cycle = s.cycle + (if always || pageCrossed base idx then 1 else 0) := by
  unfold indexed
  split
  · rename_i hx
    rw [if_pos hx] at h
    obtain ⟨t, ht, hs, hc⟩ := dummyRead_ok (h _ (List.mem_singleton_self _))
    rw [ht]; exact ⟨t, rfl, hs, hc⟩
  · exact ⟨s, rfl, rfl, rfl⟩

/-- The address of an operand where none of its dummy reads stops: the effective address of R104, and nothing changes but what the bus
saw. -/
theorem address_ok {s : State} {always : Bool} {m : MemOperand} (h : ∀ a ∈ operandDummies always m s, Harmless s a) :
    ∃ t, address always m s = .ok (effective m s, t) ∧ SameButBus s t ∧
      t.cycle = s.cycle + addressCycles always m s := by
  cases m with
  | imm b => exact ⟨s, rfl, rfl, rfl⟩
  | zp b => exact ⟨s, rfl, rfl, rfl⟩
  | abs b => exact ⟨s, rfl, rfl, rfl⟩
  | zpX b =>
    obtain ⟨t, ht, hs, hc⟩ := dummyRead_ok (harmless_ram (s := s) (zext_ram b))
    exact ⟨t, by simp [address, ht, effective, bind, Except.bind, pure, Except.pure], hs, hc⟩
  | zpY b =>
    obtain ⟨t, ht, hs, hc⟩ := dummyRead_ok (harmless_ram (s := s) (zext_ram b))
    exact ⟨t, by simp [address, ht, effective, bind, Except.bind, pure, Except.pure], hs, hc⟩
  | absX b => exact indexed_ok h
  | absY b => exact indexed_ok h
  | indX b =>
    obtain ⟨t, ht, hs, hc⟩ := dummyRead_ok (harmless_ram (s := s) (zext_ram b))
    have h2 : SameButBus t { t with cycle := t.cycle + 2 } := rfl
    refine ⟨{ t with cycle := t.cycle + 2 }, ?_, hs.trans h2, by simp [hc, addressCycles]⟩
    show (dummyRead (zext b) s).bind (fun s1 => .ok (read16ZP (b + s.x) s1)) = _
    rw [ht]
    show Except.ok (read16ZP (b + s.x) t) = _
    rw [read16ZP_spec, hs.byteAt, hs.byteAt]
    rfl
  | indY b =>
    have hs : SameButBus s { s with cycle := s.cycle + 2 } := rfl
    obtain ⟨t, ht, hs', hc⟩ := indexed_ok (s := { s with cycle := s.cycle + 2 }) (idx := s.y) fun a ha => hs.harmless (h a ha)
    refine ⟨t, by simpa [address, read16ZP_spec, effective] using ht, hs.trans hs', ?_⟩
    rw [hc]
    show s.cycle + 2 + _ = s.cycle + _
    simp only [addressCycles, operandCrosses]
    split <;> rename_i hp <;> simp only [hp] <;> rfl

/-- The operand byte where none of its dummy reads stops. -/
theorem readOperand_ok {s : State} {m : MemOperand} (h : ∀ a ∈ operandDummies false m s, Harmless s a) :
    ∃ v t, readOperand m s = .ok (v, t) ∧ SameButBus s t ∧
      t.cycle = s.cycle + (match m with | .imm _ => 0 | m => addressCycles false m s + 1) := by
  by_cases hm : ∃ b, m = .imm b
  · obtain ⟨b, rfl⟩ := hm; exact ⟨b, s, rfl, rfl, rfl⟩
  · obtain ⟨t, ht, hs, hc⟩ := address_ok h
    refine ⟨readValue (effective m s) t, afterRead (effective m s) t, ?_, hs.trans rfl, ?_⟩
    · cases m <;> first
        | (exfalso; exact hm ⟨_, rfl⟩)
        | simp [readOperand, ht, bind, Except.bind, pure, Except.pure, read]
    · cases m <;> first
        | (exfalso; exact hm ⟨_, rfl⟩)
        | simp [hc, Nat.add_assoc]

/-- The operand byte of a mode other than immediate, at a plain memory address, is the byte of memory. -/
theorem readOperand_memory {s t : State} {m : MemOperand} {v : Byte} (h : ∀ a ∈ operandDummies false m s, Harmless s a)
    (hm : ∀ b, m ≠ .imm b) (hd : isDevice s (effective m s) = false) (hr : readOperand m s = .ok (v, t)) :
    v = byteAt s (effective m s) := by
  obtain ⟨u, hu, hs, -⟩ := address_ok h
  have : readOperand m s = .ok (read (effective m s) u) := by
    cases m <;> first
      | (exfalso; exact hm _ rfl)
      | simp [readOperand, hu, bind, Except.bind, pure, Except.pure]
  rw [this] at hr
  injection hr with hr
  have hv : readValue (effective m s) u = v := congrArg Prod.fst hr
  rw [← hv, readValue_memory (by rw [hs.isDevice]; exact hd), hs.byteAt]

/-- An address pushed: both bytes on the stack, high byte first, SP two lower. -/
theorem pushAddr_spec (a : Addr) (s : State) :
    ∃ m, pushAddr a s = { s with mem := m, sp := s.sp - 2, cycle := s.cycle + 2 } ∧
      (∀ k, k ≠ 256 + s.sp.toNat → k ≠ 256 + (s.sp - 1).toNat → m.read k = s.mem.read k) ∧
      (Memory.wf s.mem = true →
        Memory.wf m = true ∧ m.read (256 + s.sp.toNat) = hi a ∧ m.read (256 + (s.sp - 1).toNat) = lo a) := by
  refine ⟨(s.mem.write (256 + s.sp.toNat) (hi a)).write (256 + (s.sp - 1).toNat) (lo a), ?_, ?_, ?_⟩
  · unfold pushAddr; rw [push_spec, push_spec]
    have : s.sp - 1 - 1 = s.sp - 2 := by bv_omega
    simp only [this]
  · intro k h1 h2; rw [Memory.read_write_other _ _ _ _ h2, Memory.read_write_other _ _ _ _ h1]
  · intro h
    have h1 := Memory.wf_write _ (256 + s.sp.toNat) (hi a) h
    refine ⟨Memory.wf_write _ _ _ h1, ?_, Memory.read_write_same _ _ _ h1⟩
    rw [Memory.read_write_other, Memory.read_write_same _ _ _ h]
    have : s.sp.toNat ≠ (s.sp - 1).toNat := by intro h; bv_omega
    omega

/-- An address pulled: low byte first, SP two higher. -/
theorem pullAddr_spec (s : State) : pullAddr s =
    (join (byteAt s (stackAddr (s.sp + 2))) (byteAt s (stackAddr (s.sp + 1))),
      { s with sp := s.sp + 2, cycle := s.cycle + 2 }) := by
  have e : s.sp + 1 + 1 = s.sp + 2 := by bv_omega
  simp only [pullAddr, pull_spec, e]
  rfl

/-- Entering a handler is seen by no device where none answers at the vector: the pushes go to RAM. -/
theorem enterHandler_busLog {ret : Addr} {b : Bool} {vector : Addr} {s : State} (h : isDevice s vector = false)
    (h' : isDevice s (vector + 1) = false) : (enterHandler ret b vector s).busLog = s.busLog := by
  obtain ⟨m, hm, -⟩ := pushAddr_spec ret s
  have hp : ∃ t, push (statusByte b (pushAddr ret s).p) (pushAddr ret s) = t ∧ t.busLog = s.busLog ∧ t.cfg = s.cfg :=
    ⟨_, rfl, by rw [push_spec, hm], by rw [push_spec, hm]⟩
  obtain ⟨t, ht, hl, hc⟩ := hp
  have hd : ∀ a, isDevice s a = false → isDevice (setI true t) a = false := fun a ha => by
    rw [← ha]; unfold isDevice kindAt; rw [show (setI true t).cfg = s.cfg from hc]
  unfold enterHandler read16
  simp only [ht, readPair_memory (hd _ h) (hd _ h')]
  exact hl

/-- Entering a handler through a vector outside RAM. -/
theorem enterHandler_spec (ret : Addr) (b : Bool) (vector : Addr) (s : State) (hv : 0x2000 ≤ vector.toNat)
    (hv' : 0x2000 ≤ (vector + 1).toNat) :
    Entered ret b vector s (enterHandler ret b vector s) ∧
      (enterHandler ret b vector s).nmiPending = s.nmiPending ∧
      (enterHandler ret b vector s).cycle = s.cycle + 5 := by
  obtain ⟨m, hm, hfr, hw⟩ := pushAddr_spec ret s
  have e2 : s.sp - 2 - 1 = s.sp - 3 := by bv_omega
  have h1 : push (statusByte b (pushAddr ret s).p) (pushAddr ret s) = { s with
      mem := m.write (256 + (s.sp - 2).toNat) (statusByte b s.p), sp := s.sp - 3, cycle := s.cycle + 3 } := by
    rw [push_spec, hm]; simp only [e2]
  generalize hmw : m.write (256 + (s.sp - 2).toNat) (statusByte b s.p) = m' at h1
  have hu : enterHandler ret b vector s =
      { (read16 vector (setI true { s with mem := m', sp := s.sp - 3, cycle := s.cycle + 3 })).2 with
        pc := (read16 vector (setI true { s with mem := m', sp := s.sp - 3, cycle := s.cycle + 3 })).1
        takeInt := .none } := by
    rw [← h1]; rfl
  have hmem : ∀ k, k ≠ 256 + s.sp.toNat → k ≠ 256 + (s.sp - 1).toNat → k ≠ 256 + (s.sp - 2).toNat →
      m'.read k = s.mem.read k := by
    intro k k1 k2 k3
    rw [← hmw, Memory.read_write_other _ _ _ _ k3, hfr k k1 k2]
  refine ⟨⟨?_, ?_, ?_, ?_⟩, ?_, ?_⟩
  · rw [hu]; rfl
  · intro c c1 c2 c3
    rw [cell_stackAddr] at c1 c2 c3
    rw [hu]
    exact hmem _ c1 c2 c3
  · intro hwf
    obtain ⟨g1, g2, g3⟩ := hw hwf
    have n1 : 256 + s.sp.toNat ≠ 256 + (s.sp - 2).toNat := by intro h; bv_omega
    have n2 : 256 + (s.sp - 1).toNat ≠ 256 + (s.sp - 2).toNat := by intro h; bv_omega
    rw [hu]
    refine ⟨?_, ?_, ?_⟩
    · show m'.read (cell (stackAddr s.sp)) = _
      rw [cell_stackAddr, ← hmw, Memory.read_write_other _ _ _ _ n1, g2]
    · show m'.read (cell (stackAddr (s.sp - 1))) = _
      rw [cell_stackAddr, ← hmw, Memory.read_write_other _ _ _ _ n2, g3]
    · show m'.read (cell (stackAddr (s.sp - 2))) = _
      rw [cell_stackAddr, ← hmw, Memory.read_write_same _ _ _ g1]
  · intro d1 d2
    have hc : ∀ a : Addr, 0x2000 ≤ a.toNat → m'.read (cell a) = s.mem.read (cell a) := by
      intro a ha
      have : 0x2000 ≤ cell a := by rw [cell_eq]; split_ifs <;> omega
      have := s.sp.isLt; have := (s.sp - 1).isLt; have := (s.sp - 2).isLt
      exact hmem _ (by omega) (by omega) (by omega)
    rw [hu]
    show (readPair vector (vector + 1) _).1 = _
    rw [readPair_memory (by exact d1) (by exact d2)]
    show join (m'.read _) (m'.read _) = _
    rw [hc _ hv, hc _ hv']; rfl
  · rw [hu]; rfl
  · rw [hu]; rfl

/-- The return from a handler: the six flags, then the address. -/
theorem returnFromHandler_spec (s : State) : returnFromHandler s =
    { s with
      p := flagsOfByte (byteAt s (stackAddr (s.sp + 1)))
      sp := s.sp + 3
      pc := join (byteAt s (stackAddr (s.sp + 3))) (byteAt s (stackAddr (s.sp + 2)))
      cycle := s.cycle + 3 } := by
  have e : s.sp + 1 + 1 = s.sp + 2 := by bv_omega
  have e2 : s.sp + 2 + 1 = s.sp + 3 := by bv_omega
  simp only [returnFromHandler, pullAddr, pull_spec, setStatus, e, e2]
  rfl

/-! ### The shapes of instructions -/

theorem readInstr_ok {s : State} {m : MemOperand} (h : ∀ a ∈ operandDummies false m s, Harmless s a) (f : Byte → State → State) :
    ∃ v t, readOperand m s = .ok (v, t) ∧ SameButBus s t ∧ readInstr m f s = .next (advance m.length (f v t)) := by
  obtain ⟨v, t, hr, hs, -⟩ := readOperand_ok h
  exact ⟨v, t, hr, hs, by simp [readInstr, hr, finish, bind, Except.bind, pure, Except.pure]⟩

theorem impliedInstr_ok {s : State} (h : Harmless s (s.pc + 1)) (f : State → State) :
    ∃ t, SameButBus s t ∧ t.cycle = s.cycle + 1 ∧ impliedInstr f s = .next (advance 1 (f t)) := by
  obtain ⟨t, ht, hs, hc⟩ := dummyRead_ok h
  exact ⟨t, hs, hc, by unfold impliedInstr; rw [ht]; rfl⟩

theorem storeInstr_ok {s : State} {m : MemOperand} (h : ∀ a ∈ operandDummies true m s, Harmless s a) (v : State → Byte) :
    ∃ t, address true m s = .ok (effective m s, t) ∧ SameButBus s t ∧
      storeInstr m v s = .next (advance m.length (write (effective m s) (v t) t)) := by
  obtain ⟨t, ht, hs, -⟩ := address_ok h
  exact ⟨t, ht, hs, by simp [storeInstr, ht, finish, bind, Except.bind, pure, Except.pure]⟩

/-- A dummy write that cannot stop: one cycle, at most the byte of its own cell changes. -/
theorem dummyWrite_ok {s : State} {a : Addr} (h : Harmless s a) (v : Byte) :
    dummyWrite a v s = .ok (write a v s) ∨ dummyWrite a v s = .ok (tick s) := by
  unfold dummyWrite
  rcases h with h | h
  · rw [h]; exact .inl rfl
  · cases s.cfg.dummyPolicy
    · exact .inl rfl
    · simp only [h]; exact .inr rfl

theorem modifyInstr_ok {s : State} {m : MemOperand}
    (h : ∀ a ∈ operandDummies true m s ++ [effective m s], Harmless s a) (f : State → Byte → Byte)
    (g : Byte → Byte → State → State) :
    ∃ t u, address true m s = .ok (effective m s, t) ∧ SameButBus s t ∧
      dummyWrite (effective m s) (readValue (effective m s) t) (afterRead (effective m s) t) = .ok u ∧
      (u = write (effective m s) (readValue (effective m s) t) (afterRead (effective m s) t) ∨
        u = tick (afterRead (effective m s) t)) ∧
      modifyInstr m f g s = .next (advance m.length
        (g (readValue (effective m s) t) (f u (readValue (effective m s) t))
          (write (effective m s) (f u (readValue (effective m s) t)) u))) := by
  obtain ⟨t, ht, hs, -⟩ := address_ok fun a ha => h a (List.mem_append_left _ ha)
  have hd : Harmless (afterRead (effective m s) t) (effective m s) :=
    (hs.trans (sameButBus_afterRead _ t)).harmless (h _ (List.mem_append_right _ (List.mem_singleton_self _)))
  rcases dummyWrite_ok hd (readValue (effective m s) t) with hw | hw
  · exact ⟨t, _, ht, hs, hw, .inl rfl, by simp [modifyInstr, ht, hw, read, finish, bind, Except.bind, pure, Except.pure]⟩
  · exact ⟨t, _, ht, hs, hw, .inr rfl, by simp [modifyInstr, ht, hw, read, finish, bind, Except.bind, pure, Except.pure]⟩

/-! ### Keys of memory -/

theorem keysAreCells_write {m : Memory} (h : keysAreCells m) (a : Addr) (v : Byte) :
    keysAreCells (m.write (cell a) v) := by
  intro c hc
  rcases Memory.keys_write hc with hk | hk
  · rw [hk]; exact ⟨cell_lt a, cell_cell a⟩
  · exact h c hk

end Sys2Proof.Machine
end

