-- ==== Sys2Proof/Laws/Exec.lean ====
section
/-!
SUPPORT. The meaning of an instruction from its columns: what `exec` does depends on the mnemonic, the opcode byte and the operand
alone, so a proof about one mnemonic treats all its rows at once.
-/

namespace Sys2Proof.Machine

/-- Hand a memory operand on; a mnemonic that needs one has no other. -/
def onMemory (o : Operand) (f : MemOperand → Result) : Result :=
  match o with
  | .memory m => f m
  | .implied | .accumulator | .indirect _ | .relative _ => .fault (.unlistedOpcode 0 0)

/-- Hand the byte of an immediate or relative operand on. -/
def onByte (o : Operand) (f : Byte → Result) : Result :=
  match o with
  | .memory (.imm b) | .relative b => f b
  | _ => .fault (.unlistedOpcode 0 0)

/-- Hand the address of an absolute operand on. -/
def onAddress (o : Operand) (f : Addr → Result) : Result :=
  match o with
  | .memory (.abs a) => f a
  | _ => .fault (.unlistedOpcode 0 0)

/-- The meaning of an instruction, by mnemonic. -/
def meaning (i : Instr) (s : State) : Result :=
  match i.mnemonic with
  | .lda => onMemory i.operand fun m => opLda m s
  | .ldx => onMemory i.operand fun m => opLdx m s
  | .ldy => onMemory i.operand fun m => opLdy m s
  | .sta => onMemory i.operand fun m => opSta m s
  | .stx => onMemory i.operand fun m => opStx m s
  | .sty => onMemory i.operand fun m => opSty m s
  | .adc => onMemory i.operand fun m => opAdc m s
  | .sbc => onMemory i.operand fun m => opSbc m s
  | .inc => onMemory i.operand fun m => opInc m s
  | .dec => onMemory i.operand fun m => opDec m s
  | .and => onMemory i.operand fun m => opAnd m s
  | .ora => onMemory i.operand fun m => opOra m s
  | .eor => onMemory i.operand fun m => opEor m s
  | .cmp => onMemory i.operand fun m => opCmp m s
  | .cpx => onMemory i.operand fun m => opCpx m s
  | .cpy => onMemory i.operand fun m => opCpy m s
  | .bit => onMemory i.operand fun m => opBit m s
  | .asl => match i.operand with
    | .memory m => opAsl m s
    | _ => opAslAcc s
  | .lsr => match i.operand with
    | .memory m => opLsr m s
    | _ => opLsrAcc s
  | .rol => match i.operand with
    | .memory m => opRol m s
    | _ => opRolAcc s
  | .ror => match i.operand with
    | .memory m => opRor m s
    | _ => opRorAcc s
  | .sax => onMemory i.operand fun m => opSax i.opcode m s
  | .lax => onMemory i.operand fun m => opLax i.opcode m s
  | .dcp => onMemory i.operand fun m => opDcp i.opcode m s
  | .isc => onMemory i.operand fun m => opIsc i.opcode m s
  | .rla => onMemory i.operand fun m => opRla i.opcode m s
  | .rra => onMemory i.operand fun m => opRra i.opcode m s
  | .slo => onMemory i.operand fun m => opSlo i.opcode m s
  | .sre => onMemory i.operand fun m => opSre i.opcode m s
  | .anc => onByte i.operand fun b => opAnc i.opcode b s
  | .alr => onByte i.operand fun b => opAlr i.opcode b s
  | .arr => onByte i.operand fun b => opArr i.opcode b s
  | .axs => onByte i.operand fun b => opAxs i.opcode b s
  | .bpl => onByte i.operand fun b => opBpl b s
  | .bmi => onByte i.operand fun b => opBmi b s
  | .bvc => onByte i.operand fun b => opBvc b s
  | .bvs => onByte i.operand fun b => opBvs b s
  | .bcc => onByte i.operand fun b => opBcc b s
  | .bcs => onByte i.operand fun b => opBcs b s
  | .bne => onByte i.operand fun b => opBne b s
  | .beq => onByte i.operand fun b => opBeq b s
  | .tax => opTax s
  | .tay => opTay s
  | .tsx => opTsx s
  | .txa => opTxa s
  | .txs => opTxs s
  | .tya => opTya s
  | .pha => opPha s
  | .php => opPhp s
  | .pla => opPla s
  | .plp => opPlp s
  | .inx => opInx s
  | .iny => opIny s
  | .dex => opDex s
  | .dey => opDey s
  | .rts => opRts s
  | .rti => opRti s
  | .clc => opClc s
  | .sec => opSec s
  | .cli => opCli s
  | .sei => opSei s
  | .clv => opClv s
  | .cld => opCld s
  | .sed => opSed s
  | .brk => opBrk s
  | .nop => opNop s
  | .jmp => match i.operand with
    | .indirect ptr => opJmpInd ptr s
    | o => onAddress o fun a => opJmp a s
  | .jsr => onAddress i.operand fun a => opJsr a s
  | .unlisted => opUnlisted i.opcode s

/-- `exec` is the meaning of the mnemonic. -/
theorem exec_eq_meaning (i : Instr) (s : State) : exec i s = meaning i s := by
  cases i <;> rfl

/-- The mnemonics whose every row has a memory operand. -/
def onlyMemory (m : Mnemonic) : Bool :=
  [.lda, .ldx, .ldy, .sta, .stx, .sty, .adc, .sbc, .inc, .dec, .and, .ora, .eor, .cmp, .cpx, .cpy, .bit, .sax, .lax, .dcp, .isc, .rla, .rra, .slo, .sre].contains m

theorem operand_memory {i : Instr} (h : onlyMemory i.mnemonic = true) : ∃ m, i.operand = .memory m := by
  cases i <;> first | exact ⟨_, rfl⟩ | cases h

/-- The mnemonics whose every row has an immediate byte. -/
def onlyImmediate (m : Mnemonic) : Bool := [.anc, .alr, .arr, .axs].contains m

theorem operand_immediate {i : Instr} (h : onlyImmediate i.mnemonic = true) : ∃ b, i.operand = .memory (.imm b) := by
  cases i <;> first | exact ⟨_, rfl⟩ | cases h

/-- The mnemonics whose every row has a memory operand or is the accumulator form. -/
def memoryOrA (m : Mnemonic) : Bool := [.asl, .lsr, .rol, .ror].contains m

theorem operand_memoryOrA {i : Instr} (h : memoryOrA i.mnemonic = true) :
    i.operand = .accumulator ∨ ∃ m, i.operand = .memory m := by
  cases i <;> first | exact .inl rfl | exact .inr ⟨_, rfl⟩ | cases h

/-- The branches. -/
def isBranch (m : Mnemonic) : Bool := [.bpl, .bmi, .bvc, .bvs, .bcc, .bcs, .bne, .beq].contains m

theorem operand_relative {i : Instr} (h : isBranch i.mnemonic = true) : ∃ b, i.operand = .relative b := by
  cases i <;> first | exact ⟨_, rfl⟩ | cases h

/-- The mnemonics without an operand. -/
def isImplied (m : Mnemonic) : Bool :=
  [.tax, .tay, .tsx, .txa, .txs, .tya, .pha, .php, .pla, .plp, .inx, .iny, .dex, .dey, .rts, .rti, .clc, .sec, .cli, .sei, .clv, .cld, .sed, .brk, .nop].contains m

theorem operand_implied {i : Instr} (h : isImplied i.mnemonic = true) : i.operand = .implied := by
  cases i <;> first | rfl | cases h

/-! ### From the shape of a meaning to its statement -/

/-- The mnemonics that write a byte, and those that read and write one (70_reset_and_hazards.md R275). -/
def onlyStores (m : Mnemonic) : Bool := [.sta, .stx, .sty, .sax].contains m
def onlyModifies (m : Mnemonic) : Bool :=
  [.inc, .dec, .asl, .lsr, .rol, .ror, .dcp, .isc, .rla, .rra, .slo, .sre].contains m

/-- An instruction that only reads its operand: its dummy reads are those of its mode. -/
theorem NoDummyStops.reads {i : Instr} {s : State} {m : MemOperand} (h : NoDummyStops i s) (ho : i.operand = .memory m)
    (hm : (onlyStores i.mnemonic || onlyModifies i.mnemonic || i.mnemonic == .jmp || i.mnemonic == .jsr) = false) :
    ∀ a ∈ operandDummies false m s, Harmless s a := by
  unfold NoDummyStops dummyAddresses at h
  rw [ho] at h
  cases hn : i.mnemonic <;> rw [hn] at h hm <;> first | exact h | cases hm

/-- An instruction that stores: the dummy read of an indexed mode is always among its own. -/
theorem NoDummyStops.stores {i : Instr} {s : State} {m : MemOperand} (h : NoDummyStops i s) (ho : i.operand = .memory m)
    (hm : onlyStores i.mnemonic = true) : ∀ a ∈ operandDummies true m s, Harmless s a := by
  unfold NoDummyStops dummyAddresses at h
  rw [ho] at h
  cases hn : i.mnemonic <;> rw [hn] at h hm <;> first | exact h | cases hm

/-- A read-modify-write instruction: the write of the old byte comes last. -/
theorem NoDummyStops.modifies {i : Instr} {s : State} {m : MemOperand} (h : NoDummyStops i s) (ho : i.operand = .memory m)
    (hm : onlyModifies i.mnemonic = true) : ∀ a ∈ operandDummies true m s ++ [effective m s], Harmless s a := by
  unfold NoDummyStops dummyAddresses at h
  rw [ho] at h
  cases hn : i.mnemonic <;> rw [hn] at h hm <;> first | exact h | cases hm

theorem readsThen_of {i : Instr} {s : State} {m : MemOperand} {f : Byte → State → State} (h : NoDummyStops i s)
    (hm : (onlyStores i.mnemonic || onlyModifies i.mnemonic || i.mnemonic == .jmp || i.mnemonic == .jsr) = false)
    (ho : i.operand = .memory m) (he : exec i s = readInstr m f s) :
    ReadsThen i s fun v u => advance i.length (f v u) := by
  obtain ⟨v, t, hr, hs, hx⟩ := readInstr_ok (h.reads ho hm) f
  exact ⟨m, v, t, ho, hr, hs, by rw [he, hx, Instr.length, ho]; rfl⟩

/-- Two next states that agree where only the bus changed are the same statement. -/
theorem ReadsThen.congr {i : Instr} {s : State} {f g : Byte → State → State} (h : ReadsThen i s f)
    (hfg : ∀ v u, SameButBus s u → f v u = g v u) : ReadsThen i s g := by
  obtain ⟨m, v, t, ho, hr, hs, hx⟩ := h
  exact ⟨m, v, t, ho, hr, hs, by rw [hx, hfg v t hs]⟩

theorem runs_of {i : Instr} {s : State} {f g : State → State} (h : Harmless s (s.pc + 1)) (he : exec i s = impliedInstr f s)
    (hg : ∀ u, SameButBus s u → advance 1 (f u) = g u) : Runs i s 1 g := by
  obtain ⟨t, hs, hc, hx⟩ := impliedInstr_ok h f
  exact ⟨t, hs, hc, by rw [he, hx, hg t hs]⟩

theorem stores_of {i : Instr} {s : State} {m : MemOperand} {v : State → Byte} {b : Byte} (h : NoDummyStops i s)
    (hm : onlyStores i.mnemonic = true)
    (ho : i.operand = .memory m) (he : exec i s = storeInstr m v s) (hv : ∀ u, SameButBus s u → v u = b) :
    Stores i s b := by
  obtain ⟨t, ha, hs, hx⟩ := storeInstr_ok (h.stores ho hm) v
  refine ⟨m, effective m s, t, _, ho, ha, hs, by rw [he, hx, hv t hs], ?_, ?_, ?_, ?_, ?_⟩
  · rw [hs]; rfl
  · rw [Instr.length, ho]; simp [hs.pc]; rfl
  · intro c hc; rw [← hs.byteAt]; exact onlyCellChanges_write _ _ t c hc
  · intro hw hi; rw [← hs.mem] at hw; rw [← hs.isWritable] at hi; exact holdsAt_write _ _ t hw hi
  · intro hn; rw [← hs.dmaStall]; exact write_dmaStall_other hn b t

/-- A read-modify-write: what the dummy write did is overwritten. -/
theorem modifies_of {i : Instr} {s : State} {m : MemOperand} {f : State → Byte → Byte} {g : Byte → Byte → State → State}
    {f' : Byte → Byte} {g' : Byte → Byte → State → State} (h : NoDummyStops i s)
    (hm : onlyModifies i.mnemonic = true)
    (ho : i.operand = .memory m) (he : exec i s = modifyInstr m f g s)
    (hf : ∀ u v, u.p = s.p → f u v = f' v)
    (hg : ∀ v u, SameButStore s u → g v (f' v) u = { g' v (f' v) s with
      pc := u.pc, mem := u.mem, dmaStall := u.dmaStall, cycle := u.cycle, busLog := u.busLog }) :
    Modifies i s f' g' := by
  obtain ⟨t, u, ha, hs, -, hu, hx⟩ := modifyInstr_ok (h.modifies ho hm) f g
  have hup : u.p = s.p := by rcases hu with rfl | rfl <;> simp [hs.p, tick]
  rw [hf u _ hup] at hx
  generalize effective m s = ea at *
  have hsame : SameButStore s (write ea (f' (readValue ea t)) u) := by
    rcases hu with rfl | rfl <;> (rw [hs]; rfl)
  rw [hg _ _ hsame] at hx
  refine ⟨m, ea, t, _, ho, ha, hs, he.trans hx, rfl, ?_, ?_, ?_, ?_⟩
  · have hp : u.pc = s.pc := by rcases hu with rfl | rfl <;> simp [hs.pc, tick]
    rw [Instr.length, ho]; simp [hp]; rfl
  · intro c hc
    have h1 : byteAt u c = byteAt s c := by
      rcases hu with rfl | rfl
      · rw [onlyCellChanges_write _ _ _ c hc, ← hs.byteAt]; rfl
      · rw [← hs.byteAt]; rfl
    rw [← h1, ← onlyCellChanges_write ea (f' (readValue ea t)) u c hc]; rfl
  · intro hw hi
    have hwu : Memory.wf u.mem = true := by
      rw [← hs.mem] at hw
      rcases hu with rfl | rfl
      · simp only [write_mem, afterRead_mem]; split
        · exact Memory.wf_write _ _ _ hw
        · exact hw
      · exact hw
    have hiu : isWritable u ea = true := by
      rw [← hs.isWritable] at hi
      rcases hu with rfl | rfl <;> exact hi
    exact holdsAt_write ea (f' (readValue ea t)) u hwu hiu
  · intro hn
    have hd : u.dmaStall = s.dmaStall := by
      rw [← hs.dmaStall]
      rcases hu with rfl | rfl
      · exact write_dmaStall_other hn _ _
      · rfl
    rw [← hd]; exact write_dmaStall_other hn (f' (readValue ea t)) u

end Sys2Proof.Machine
end

