-- ==== Sys2Proof/Laws/Frame.lean ====
section
/-!
SUPPORT. What any instruction can do, said once: it keeps the interrupt inputs, the latch, the platform and the form of memory; and
how it can stop.
-/

namespace Sys2Proof.Machine

/-- What no instruction changes, and that memory stays well-formed. -/
structure Keeps (s t : State) : Prop where
  lines : t.lines = s.lines
  inputs : t.inputs = s.inputs
  nmiPending : t.nmiPending = s.nmiPending
  freeCount : t.freeCount = s.freeCount
  cfg : t.cfg = s.cfg
  takeInt : t.takeInt = s.takeInt ∨ t.takeInt = .none
  wf : Memory.wf s.mem = true → Memory.wf t.mem = true
  keys : keysAreCells s.mem → keysAreCells t.mem

theorem Keeps.refl (s : State) : Keeps s s := ⟨rfl, rfl, rfl, rfl, rfl, .inl rfl, id, id⟩

theorem Keeps.trans {s t u : State} (h : Keeps s t) (k : Keeps t u) : Keeps s u where
  lines := k.lines.trans h.lines
  inputs := k.inputs.trans h.inputs
  nmiPending := k.nmiPending.trans h.nmiPending
  freeCount := k.freeCount.trans h.freeCount
  cfg := k.cfg.trans h.cfg
  takeInt := k.takeInt.elim (fun e => e ▸ h.takeInt) .inr
  wf := k.wf ∘ h.wf
  keys := k.keys ∘ h.keys

/-- A change of registers, flags, time and bus log keeps the rest. -/
theorem keeps_of {s t : State} (h1 : t.lines = s.lines) (h2 : t.inputs = s.inputs) (h3 : t.nmiPending = s.nmiPending)
    (h4 : t.freeCount = s.freeCount) (h5 : t.cfg = s.cfg) (h6 : t.takeInt = s.takeInt) (h7 : t.mem = s.mem) : Keeps s t :=
  ⟨h1, h2, h3, h4, h5, .inl h6, fun h => h7 ▸ h, fun h => h7 ▸ h⟩

theorem keeps_write (a : Addr) (v : Byte) (s : State) : Keeps s (write a v s) :=
  ⟨rfl, rfl, rfl, rfl, rfl, .inl rfl,
    fun h => by rw [write_mem]; split; exacts [Memory.wf_write _ _ _ h, h],
    fun h => by rw [write_mem]; split; exacts [keysAreCells_write h a v, h]⟩

theorem keeps_push (v : Byte) (s : State) : Keeps s (push v s) :=
  (keeps_write _ v s).trans (keeps_of rfl rfl rfl rfl rfl rfl rfl)

theorem keeps_afterRead (a : Addr) (s : State) : Keeps s (afterRead a s) := keeps_of rfl rfl rfl rfl rfl rfl rfl

theorem keeps_sameButBus {s t : State} (h : SameButBus s t) : Keeps s t := keeps_of h.lines h.inputs h.nmiPending h.freeCount h.cfg h.takeInt h.mem

theorem keeps_dummyRead {s t : State} {a : Addr} (h : dummyRead a s = .ok t) : Keeps s t :=
  keeps_sameButBus (dummyRead_inv h).1

theorem keeps_dummyWrite {s t : State} {a : Addr} {v : Byte} (h : dummyWrite a v s = .ok t) : Keeps s t := by
  unfold dummyWrite at h
  split at h
  · cases h; exact keeps_write ..
  · split at h
    · cases h
    · cases h; exact keeps_of rfl rfl rfl rfl rfl rfl rfl

/-- Fetching an instruction changes nothing but time and what the bus saw. -/
theorem fetch_sameButBus (s : State) : SameButBus s (fetch s).2 := by
  unfold fetch
  cases h : entryOf (read s.pc s).1 <;> simp only [h]
  · rfl
  · rfl
  · split <;> rfl

/-- A fault under R275: the policy refuses, and the address has side effects. -/
def DummyFault (s : State) (f : Fault) : Prop :=
  ∃ a, f = .deviceDummyAccess a ∧ s.cfg.dummyPolicy = .refuseOnDevice ∧ hasSideEffects s a = true

theorem DummyFault.of_keeps {s t : State} {f : Fault} (h : DummyFault t f) (k : Keeps s t) : DummyFault s f := by
  obtain ⟨a, h1, h2, h3⟩ := h
  refine ⟨a, h1, by rw [← k.cfg]; exact h2, ?_⟩
  rw [← h3]; unfold hasSideEffects kindAt; rw [k.cfg]

theorem dummyRead_error {s : State} {a : Addr} {f : Fault} (h : dummyRead a s = .error f) : DummyFault s f := by
  unfold dummyRead at h
  split at h
  · cases h
  · rename_i hp
    split at h
    · rename_i he; cases h; exact ⟨a, rfl, hp, he⟩
    · cases h

theorem discardedRead_error {s : State} {a : Addr} {f : Fault} (h : discardedRead a s = .error f) : DummyFault s f := by
  unfold discardedRead at h
  split at h
  · cases h
  · rename_i hp
    split at h
    · rename_i he; cases h; exact ⟨a, rfl, hp, he⟩
    · cases h

theorem dummyWrite_error {s : State} {a : Addr} {v : Byte} {f : Fault} (h : dummyWrite a v s = .error f) :
    DummyFault s f := by
  unfold dummyWrite at h
  split at h
  · cases h
  · rename_i hp
    split at h
    · rename_i he; cases h; exact ⟨a, rfl, hp, he⟩
    · cases h

/-- A computation that keeps the rest, and whose faults are those of dummy accesses. -/
def Good (s : State) (r : Except Fault State) : Prop :=
  (∀ t, r = .ok t → Keeps s t) ∧ ∀ f, r = .error f → DummyFault s f

theorem good_ok {s t : State} (h : Keeps s t) : Good s (.ok t) := ⟨fun _ e => by cases e; exact h, by intro _ h1; cases h1⟩

theorem good_dummyRead (a : Addr) (s : State) : Good s (dummyRead a s) :=
  ⟨fun _ h => keeps_dummyRead h, fun _ h => dummyRead_error h⟩

theorem good_discardedRead (a : Addr) (s : State) : Good s (discardedRead a s) :=
  ⟨fun _ h => discardedRead_inv h ▸ keeps_afterRead a s, fun _ h => discardedRead_error h⟩

theorem good_dummyWrite (a : Addr) (v : Byte) (s : State) : Good s (dummyWrite a v s) :=
  ⟨fun _ h => keeps_dummyWrite h, fun _ h => dummyWrite_error h⟩

theorem Good.bind {s : State} {r : Except Fault State} {f : State → Except Fault State} (h : Good s r)
    (k : ∀ t, Good t (f t)) : Good s (r.bind f) := by
  cases r with
  | ok t => exact ⟨fun u e => (h.1 t rfl).trans ((k t).1 u e), fun x e => ((k t).2 x e).of_keeps (h.1 t rfl)⟩
  | error e => exact ⟨(by intro _ h1; cases h1), fun f h' => by cases h'; exact h.2 _ rfl⟩

theorem Good.mono {s t : State} {r : Except Fault State} (h : Good t r) (k : Keeps s t) : Good s r :=
  ⟨fun u e => k.trans (h.1 u e), fun f e => (h.2 f e).of_keeps k⟩

/-- The same of a computation that also answers a value. -/
def GoodP (s : State) (r : Except Fault (α × State)) : Prop :=
  (∀ x, r = .ok x → Keeps s x.2) ∧ ∀ f, r = .error f → DummyFault s f

theorem goodP_ok {s : State} {x : α × State} (h : Keeps s x.2) : GoodP s (.ok x) := ⟨fun _ e => by cases e; exact h, by intro _ h1; cases h1⟩

theorem Good.bindP {s : State} {r : Except Fault State} {f : State → Except Fault (α × State)} (h : Good s r)
    (k : ∀ t, GoodP t (f t)) : GoodP s (r.bind f) := by
  cases r with
  | ok t => exact ⟨fun u e => (h.1 t rfl).trans ((k t).1 u e), fun x e => ((k t).2 x e).of_keeps (h.1 t rfl)⟩
  | error e => exact ⟨(by intro _ h1; cases h1), fun f h' => by cases h'; exact h.2 _ rfl⟩

theorem GoodP.mono {s t : State} {r : Except Fault (α × State)} (h : GoodP t r) (k : Keeps s t) : GoodP s r :=
  ⟨fun u e => k.trans (h.1 u e), fun f e => (h.2 f e).of_keeps k⟩

theorem bind_pair {r : Except Fault (α × State)} {f : α × State → Except Fault State} {s : State}
    (h : GoodP s r) (k : ∀ x, Good x.2 (f x)) : Good s (r.bind f) := by
  cases r with
  | ok x => exact (k x).mono (h.1 _ rfl)
  | error e => exact ⟨(by intro _ h1; cases h1), fun f h' => by cases h'; exact h.2 _ rfl⟩

theorem good_indexed (always : Bool) (base : Addr) (idx : Byte) (s : State) : GoodP s (indexed always base idx s) := by
  unfold indexed
  split
  · cases h : dummyRead (uncorrected base idx) s with
    | ok t => exact goodP_ok (keeps_dummyRead h)
    | error f => exact ⟨(by intro _ h1; cases h1), fun g hg => by cases hg; exact dummyRead_error h⟩
  · exact goodP_ok (.refl s)

theorem keeps_read16ZP (z : Byte) (s : State) : Keeps s (read16ZP z s).2 := by
  rw [read16ZP_spec]; exact keeps_of rfl rfl rfl rfl rfl rfl rfl

theorem good_address (always : Bool) (m : MemOperand) (s : State) : GoodP s (address always m s) := by
  cases m with
  | imm b => exact goodP_ok (.refl s)
  | zp b => exact goodP_ok (.refl s)
  | abs b => exact goodP_ok (.refl s)
  | zpX b => exact (good_dummyRead (zext b) s).bindP fun t => goodP_ok (.refl t)
  | zpY b => exact (good_dummyRead (zext b) s).bindP fun t => goodP_ok (.refl t)
  | absX b => exact good_indexed ..
  | absY b => exact good_indexed ..
  | indX b => exact (good_dummyRead (zext b) s).bindP fun _ => goodP_ok (keeps_read16ZP ..)
  | indY b => exact (good_indexed always _ s.y (read16ZP b s).2).mono (keeps_read16ZP ..)

theorem good_readOperand (m : MemOperand) (s : State) : GoodP s (readOperand m s) := by
  have key : GoodP s ((address false m s).bind fun ea => .ok (read ea.1 ea.2)) := by
    cases h : address false m s with
    | ok x => exact goodP_ok (((good_address false m s).1 _ h).trans (keeps_afterRead x.1 x.2))
    | error f => exact ⟨(by intro _ h1; cases h1), fun g hg => by cases hg; exact (good_address false m s).2 _ h⟩
  cases m <;> first | exact goodP_ok (.refl s) | exact key

/-- The outcome of a good computation. -/
theorem good_readInstr (m : MemOperand) {f : Byte → State → State} (hf : ∀ v u, Keeps u (f v u)) (s : State) :
    ∃ r, readInstr m f s = finish r ∧ Good s r :=
  ⟨_, rfl, bind_pair (good_readOperand m s) fun _ => good_ok ((hf _ _).trans (keeps_of rfl rfl rfl rfl rfl rfl rfl))⟩

theorem good_impliedInstr {f : State → State} (hf : ∀ u, Keeps u (f u)) (s : State) :
    ∃ r, impliedInstr f s = finish r ∧ Good s r :=
  ⟨_, rfl, (good_dummyRead _ s).bind fun _ => good_ok ((hf _).trans (keeps_of rfl rfl rfl rfl rfl rfl rfl))⟩

theorem good_storeInstr (m : MemOperand) (v : State → Byte) (s : State) :
    ∃ r, storeInstr m v s = finish r ∧ Good s r :=
  ⟨_, rfl, bind_pair (good_address true m s) fun _ => good_ok ((keeps_write ..).trans (keeps_of rfl rfl rfl rfl rfl rfl rfl))⟩

theorem good_modifyInstr (m : MemOperand) (f : State → Byte → Byte) {g : Byte → Byte → State → State}
    (hg : ∀ v r u, Keeps u (g v r u)) (s : State) : ∃ r, modifyInstr m f g s = finish r ∧ Good s r :=
  ⟨_, rfl, bind_pair (good_address true m s) fun x =>
    ((good_dummyWrite x.1 (read x.1 x.2).1 (read x.1 x.2).2).bind fun u => good_ok (((keeps_write x.1 (f u (read x.1 x.2).1) u).trans
      (hg (read x.1 x.2).1 (f u (read x.1 x.2).1) _)).trans
      (show Keeps _ (advance m.length _) from keeps_of rfl rfl rfl rfl rfl rfl rfl))).mono (keeps_afterRead x.1 x.2)⟩

theorem keeps_pushAddr (a : Addr) (s : State) : Keeps s (pushAddr a s) := (keeps_push ..).trans (keeps_push ..)

theorem keeps_enterHandler (ret : Addr) (b : Bool) (v : Addr) (s : State) : Keeps s (enterHandler ret b v s) := by
  have h := (keeps_pushAddr ret s).trans (keeps_push (statusByte b (pushAddr ret s).p) _)
  have h1 := h.trans (show Keeps _ (setI true _) from keeps_of rfl rfl rfl rfl rfl rfl rfl)
  have h2 := h1.trans (keeps_sameButBus (readPair_sameButBus v (v + 1) _).1)
  exact ⟨h2.lines, h2.inputs, h2.nmiPending, h2.freeCount, h2.cfg, .inr rfl, h2.wf, h2.keys⟩

/-- The outcomes of an instruction. -/
def GoodExec (i : Instr) (s : State) (r : Result) : Prop :=
  (∃ c, r = finish c ∧ Good s c) ∨
  (i.status = .undocumented ∧ s.cfg.admitUndocumented = false ∧ r = .fault (.undocumentedNotAdmitted i.opcode s.pc)) ∨
  (i.status = .unlisted ∧ r = .fault (.unlistedOpcode i.opcode s.pc))

theorem GoodExec.next {i : Instr} {s t : State} (h : Keeps s t) : GoodExec i s (.next t) := .inl ⟨.ok t, rfl, good_ok h⟩
theorem goodExec_admitted {i : Instr} {s : State} {r : Result} (hi : i.status = .undocumented)
    (h : ∃ c, r = finish c ∧ Good s c) : GoodExec i s (ifAdmitted i.opcode s r) := by
  unfold ifAdmitted
  cases ha : s.cfg.admitUndocumented
  · exact .inr (.inl ⟨hi, ha, rfl⟩)
  · exact .inl h

theorem good_branch (i : Instr) (c : Bool) (b : Byte) (s : State) : GoodExec i s (branch c b s) := by
  cases c
  · exact .next (keeps_of rfl rfl rfl rfl rfl rfl rfl)
  · refine .inl ⟨_, rfl, (good_dummyRead _ s).bind fun t => ?_⟩
    split
    · exact (good_dummyRead _ t).bind fun _ => good_ok (keeps_of rfl rfl rfl rfl rfl rfl rfl)
    · exact good_ok (keeps_of rfl rfl rfl rfl rfl rfl rfl)

theorem keeps_pull (s : State) : Keeps s (pull s).2 := by rw [pull_spec]; exact keeps_of rfl rfl rfl rfl rfl rfl rfl
theorem keeps_pullAddr (s : State) : Keeps s (pullAddr s).2 := by rw [pullAddr_spec]; exact keeps_of rfl rfl rfl rfl rfl rfl rfl


theorem keeps_loadA (v : Byte) (s : State) : Keeps s (loadA v s) := keeps_of rfl rfl rfl rfl rfl rfl rfl
theorem keeps_addWithCarry (v : Byte) (s : State) : Keeps s (addWithCarry v s) := keeps_of rfl rfl rfl rfl rfl rfl rfl

theorem keeps_setStatus (v : Byte) (s : State) : Keeps s (setStatus v s) := keeps_of rfl rfl rfl rfl rfl rfl rfl

theorem good_pullInstr {f : State → State} (hf : ∀ u, Keeps u (f u)) (s : State) :
    Good s ((pullInstr f s).bind fun t => .ok (advance 1 t)) := by
  have h1 : Good s (pullInstr f s) :=
    (good_dummyRead (s.pc + 1) s).bind fun t => (good_dummyRead (stackAddr s.sp) t).bind fun u => good_ok (hf u)
  exact h1.bind fun t => good_ok (keeps_of rfl rfl rfl rfl rfl rfl rfl)

theorem keeps_returnFromHandler (s : State) : Keeps s (returnFromHandler s) := by
  rw [returnFromHandler_spec]; exact keeps_of rfl rfl rfl rfl rfl rfl rfl

/-- A change of PC keeps the rest. -/
theorem keeps_pc (a : Addr) (s : State) : Keeps s { s with pc := a } := keeps_of rfl rfl rfl rfl rfl rfl rfl

theorem good_opJsr (a : Addr) (s : State) : ∃ c, opJsr a s = finish c ∧ Good s c := by
  unfold opJsr
  refine ⟨_, rfl, (good_dummyRead (stackAddr s.sp) s).bind fun t => good_ok ?_⟩
  exact ((keeps_pushAddr (s.pc + 2) t).trans (keeps_afterRead (s.pc + 2) _)).trans (keeps_pc _ _)

theorem good_opRts (s : State) : ∃ c, opRts s = finish c ∧ Good s c :=
  ⟨_, rfl, (good_dummyRead (s.pc + 1) s).bind fun t => (good_dummyRead (stackAddr s.sp) t).bind fun u =>
    ((good_dummyRead (pullAddr u).1 (pullAddr u).2).bind fun w => good_ok (show Keeps w { w with pc := (pullAddr u).1 + 1 } from keeps_of rfl rfl rfl rfl rfl rfl rfl)).mono (keeps_pullAddr u)⟩
theorem good_opRti (s : State) : ∃ c, opRti s = finish c ∧ Good s c :=
  ⟨_, rfl, (good_dummyRead (s.pc + 1) s).bind fun t => (good_dummyRead (stackAddr s.sp) t).bind fun u =>
    good_ok (keeps_returnFromHandler u)⟩
theorem good_opPla (s : State) : ∃ c, opPla s = finish c ∧ Good s c :=
  ⟨_, rfl, good_pullInstr (fun u => (keeps_pull u).trans (keeps_loadA ..)) s⟩
theorem good_opPlp (s : State) : ∃ c, opPlp s = finish c ∧ Good s c :=
  ⟨_, rfl, good_pullInstr (fun u => (keeps_pull u).trans (keeps_setStatus ..)) s⟩
theorem good_opBrk (s : State) : ∃ c, opBrk s = finish c ∧ Good s c :=
  ⟨_, rfl, (good_discardedRead (s.pc + 1) s).bind fun _ => good_ok (keeps_enterHandler ..)⟩

/-- What any instruction can do: keep the rest, or stop in one of three ways. -/
theorem exec_good (i : Instr) (s : State) : GoodExec i s (exec i s) := by
  rw [exec_eq_meaning]
  have und : i.mnemonic.status = .undocumented → ∀ r, (∃ c, r = finish c ∧ Good s c) → GoodExec i s (ifAdmitted i.opcode s r) :=
    fun h r => goodExec_admitted h
  cases hn : i.mnemonic
  case brk => simp only [meaning, hn]; exact .inl (good_opBrk s)
  case jsr =>
    simp only [meaning, hn]
    have : ∃ a, i.operand = .memory (.abs a) := by cases i <;> first | exact ⟨_, rfl⟩ | cases hn
    obtain ⟨a, ha⟩ := this
    rw [ha]; exact .inl (good_opJsr a s)
  case jmp =>
    simp only [meaning, hn]
    have : (∃ a, i.operand = .memory (.abs a)) ∨ ∃ a, i.operand = .indirect a := by
      cases i <;> first | exact .inl ⟨_, rfl⟩ | exact .inr ⟨_, rfl⟩ | cases hn
    rcases this with ⟨a, ha⟩ | ⟨a, ha⟩ <;> rw [ha]
    · exact .next (show Keeps s { s with pc := a } from keeps_of rfl rfl rfl rfl rfl rfl rfl)
    · exact .next (show Keeps s { (read16Page a s).2 with pc := (read16Page a s).1 } from keeps_of rfl rfl rfl rfl rfl rfl rfl)
  case unlisted => simp only [meaning, hn]; exact .inr (.inr ⟨by rw [Instr.status, hn]; rfl, rfl⟩)
  case rts => simp only [meaning, hn]; exact .inl (good_opRts s)
  case rti => simp only [meaning, hn]; exact .inl (good_opRti s)
  case pla => simp only [meaning, hn]; exact .inl (good_opPla s)
  case plp => simp only [meaning, hn]; exact .inl (good_opPlp s)
  case pha => simp only [meaning, hn]; exact .inl (good_impliedInstr (fun u => keeps_push u.a u) s)
  case php => simp only [meaning, hn]; exact .inl (good_impliedInstr (fun u => keeps_push (statusByte true u.p) u) s)
  case lax =>
    obtain ⟨m, ho⟩ := operand_memory (i := i) (by rw [hn]; rfl)
    simp only [meaning, hn, ho, onMemory]
    exact und (by rw [hn]; rfl) _ (good_readInstr _ (by intro v u; exact keeps_of rfl rfl rfl rfl rfl rfl rfl) s)
  case asl | lsr | rol | ror =>
    rcases operand_memoryOrA (i := i) (by rw [hn]; rfl) with ho | ⟨m, ho⟩ <;> simp only [meaning, hn, ho]
    · exact .inl (good_impliedInstr (by intro u; exact keeps_of rfl rfl rfl rfl rfl rfl rfl) s)
    · exact .inl (good_modifyInstr _ _ (by intro v r u; exact keeps_of rfl rfl rfl rfl rfl rfl rfl) s)
  all_goals first
    | (simp only [meaning, hn]; exact .inl (good_impliedInstr (by intro u; exact keeps_of rfl rfl rfl rfl rfl rfl rfl) s))
    | (obtain ⟨b, ho⟩ := operand_relative (i := i) (by rw [hn]; rfl)
       simp only [meaning, hn, ho, onByte]; exact good_branch ..)
    | (obtain ⟨b, ho⟩ := operand_immediate (i := i) (by rw [hn]; rfl)
       simp only [meaning, hn, ho, onByte]
       exact und (by rw [hn]; rfl) _ (good_readInstr _ (by intro v u; exact keeps_of rfl rfl rfl rfl rfl rfl rfl) s))
    | (obtain ⟨m, ho⟩ := operand_memory (i := i) (by rw [hn]; rfl)
       simp only [meaning, hn, ho, onMemory]
       first
        | exact .inl (good_readInstr _ (by intro v u; exact keeps_of rfl rfl rfl rfl rfl rfl rfl) s)
        | exact .inl (good_storeInstr _ _ s)
        | exact .inl (good_modifyInstr _ _ (by intro v r u; exact keeps_of rfl rfl rfl rfl rfl rfl rfl) s)
        | exact und (by rw [hn]; rfl) _ (good_storeInstr _ _ s)
        | exact und (by rw [hn]; rfl) _ (good_modifyInstr _ _ (by intro v r u; exact keeps_of rfl rfl rfl rfl rfl rfl rfl) s))

end Sys2Proof.Machine
end

