-- ==== Sys2Proof/Laws/PerInstr.lean ====
section
/-!
SUPPORT. The per-instruction family `EncodedLength`: the encoder writes exactly the bytes of the row's format, one lemma
for each constructor of `Instr`.
-/

namespace Sys2Proof.Laws.EncodedLength

/-- The encoding of `i` has the length of its addressing mode, and its first byte is its opcode (30_encoding.md R70). -/
def Statement (i : Instr) : Prop := (encode i).length = i.length ∧ (encode i).head? = some i.opcode

theorem brk : Statement .brk := ⟨rfl, rfl⟩
theorem oraIndX (b : Byte) : Statement (.oraIndX b) := ⟨rfl, rfl⟩
theorem unlisted02 : Statement .unlisted02 := ⟨rfl, rfl⟩
theorem sloIndX (b : Byte) : Statement (.sloIndX b) := ⟨rfl, rfl⟩
theorem unlisted04 : Statement .unlisted04 := ⟨rfl, rfl⟩
theorem oraZp (b : Byte) : Statement (.oraZp b) := ⟨rfl, rfl⟩
theorem aslZp (b : Byte) : Statement (.aslZp b) := ⟨rfl, rfl⟩
theorem sloZp (b : Byte) : Statement (.sloZp b) := ⟨rfl, rfl⟩
theorem php : Statement .php := ⟨rfl, rfl⟩
theorem oraImm (b : Byte) : Statement (.oraImm b) := ⟨rfl, rfl⟩
theorem aslAcc : Statement .aslAcc := ⟨rfl, rfl⟩
theorem ancImm0B (b : Byte) : Statement (.ancImm0B b) := ⟨rfl, rfl⟩
theorem unlisted0C : Statement .unlisted0C := ⟨rfl, rfl⟩
theorem oraAbs (a : Addr) : Statement (.oraAbs a) := ⟨rfl, rfl⟩
theorem aslAbs (a : Addr) : Statement (.aslAbs a) := ⟨rfl, rfl⟩
theorem sloAbs (a : Addr) : Statement (.sloAbs a) := ⟨rfl, rfl⟩
theorem bpl (b : Byte) : Statement (.bpl b) := ⟨rfl, rfl⟩
theorem oraIndY (b : Byte) : Statement (.oraIndY b) := ⟨rfl, rfl⟩
theorem unlisted12 : Statement .unlisted12 := ⟨rfl, rfl⟩
theorem sloIndY (b : Byte) : Statement (.sloIndY b) := ⟨rfl, rfl⟩
theorem unlisted14 : Statement .unlisted14 := ⟨rfl, rfl⟩
theorem oraZpX (b : Byte) : Statement (.oraZpX b) := ⟨rfl, rfl⟩
theorem aslZpX (b : Byte) : Statement (.aslZpX b) := ⟨rfl, rfl⟩
theorem sloZpX (b : Byte) : Statement (.sloZpX b) := ⟨rfl, rfl⟩
theorem clc : Statement .clc := ⟨rfl, rfl⟩
theorem oraAbsY (a : Addr) : Statement (.oraAbsY a) := ⟨rfl, rfl⟩
theorem unlisted1A : Statement .unlisted1A := ⟨rfl, rfl⟩
theorem sloAbsY (a : Addr) : Statement (.sloAbsY a) := ⟨rfl, rfl⟩
theorem unlisted1C : Statement .unlisted1C := ⟨rfl, rfl⟩
theorem oraAbsX (a : Addr) : Statement (.oraAbsX a) := ⟨rfl, rfl⟩
theorem aslAbsX (a : Addr) : Statement (.aslAbsX a) := ⟨rfl, rfl⟩
theorem sloAbsX (a : Addr) : Statement (.sloAbsX a) := ⟨rfl, rfl⟩
theorem jsr (a : Addr) : Statement (.jsr a) := ⟨rfl, rfl⟩
theorem andIndX (b : Byte) : Statement (.andIndX b) := ⟨rfl, rfl⟩
theorem unlisted22 : Statement .unlisted22 := ⟨rfl, rfl⟩
theorem rlaIndX (b : Byte) : Statement (.rlaIndX b) := ⟨rfl, rfl⟩
theorem bitZp (b : Byte) : Statement (.bitZp b) := ⟨rfl, rfl⟩
theorem andZp (b : Byte) : Statement (.andZp b) := ⟨rfl, rfl⟩
theorem rolZp (b : Byte) : Statement (.rolZp b) := ⟨rfl, rfl⟩
theorem rlaZp (b : Byte) : Statement (.rlaZp b) := ⟨rfl, rfl⟩
theorem plp : Statement .plp := ⟨rfl, rfl⟩
theorem andImm (b : Byte) : Statement (.andImm b) := ⟨rfl, rfl⟩
theorem rolAcc : Statement .rolAcc := ⟨rfl, rfl⟩
theorem ancImm2B (b : Byte) : Statement (.ancImm2B b) := ⟨rfl, rfl⟩
theorem bitAbs (a : Addr) : Statement (.bitAbs a) := ⟨rfl, rfl⟩
theorem andAbs (a : Addr) : Statement (.andAbs a) := ⟨rfl, rfl⟩
theorem rolAbs (a : Addr) : Statement (.rolAbs a) := ⟨rfl, rfl⟩
theorem rlaAbs (a : Addr) : Statement (.rlaAbs a) := ⟨rfl, rfl⟩
theorem bmi (b : Byte) : Statement (.bmi b) := ⟨rfl, rfl⟩
theorem andIndY (b : Byte) : Statement (.andIndY b) := ⟨rfl, rfl⟩
theorem unlisted32 : Statement .unlisted32 := ⟨rfl, rfl⟩
theorem rlaIndY (b : Byte) : Statement (.rlaIndY b) := ⟨rfl, rfl⟩
theorem unlisted34 : Statement .unlisted34 := ⟨rfl, rfl⟩
theorem andZpX (b : Byte) : Statement (.andZpX b) := ⟨rfl, rfl⟩
theorem rolZpX (b : Byte) : Statement (.rolZpX b) := ⟨rfl, rfl⟩
theorem rlaZpX (b : Byte) : Statement (.rlaZpX b) := ⟨rfl, rfl⟩
theorem sec : Statement .sec := ⟨rfl, rfl⟩
theorem andAbsY (a : Addr) : Statement (.andAbsY a) := ⟨rfl, rfl⟩
theorem unlisted3A : Statement .unlisted3A := ⟨rfl, rfl⟩
theorem rlaAbsY (a : Addr) : Statement (.rlaAbsY a) := ⟨rfl, rfl⟩
theorem unlisted3C : Statement .unlisted3C := ⟨rfl, rfl⟩
theorem andAbsX (a : Addr) : Statement (.andAbsX a) := ⟨rfl, rfl⟩
theorem rolAbsX (a : Addr) : Statement (.rolAbsX a) := ⟨rfl, rfl⟩
theorem rlaAbsX (a : Addr) : Statement (.rlaAbsX a) := ⟨rfl, rfl⟩
theorem rti : Statement .rti := ⟨rfl, rfl⟩
theorem eorIndX (b : Byte) : Statement (.eorIndX b) := ⟨rfl, rfl⟩
theorem unlisted42 : Statement .unlisted42 := ⟨rfl, rfl⟩
theorem sreIndX (b : Byte) : Statement (.sreIndX b) := ⟨rfl, rfl⟩
theorem unlisted44 : Statement .unlisted44 := ⟨rfl, rfl⟩
theorem eorZp (b : Byte) : Statement (.eorZp b) := ⟨rfl, rfl⟩
theorem lsrZp (b : Byte) : Statement (.lsrZp b) := ⟨rfl, rfl⟩
theorem sreZp (b : Byte) : Statement (.sreZp b) := ⟨rfl, rfl⟩
theorem pha : Statement .pha := ⟨rfl, rfl⟩
theorem eorImm (b : Byte) : Statement (.eorImm b) := ⟨rfl, rfl⟩
theorem lsrAcc : Statement .lsrAcc := ⟨rfl, rfl⟩
theorem alrImm (b : Byte) : Statement (.alrImm b) := ⟨rfl, rfl⟩
theorem jmpAbs (a : Addr) : Statement (.jmpAbs a) := ⟨rfl, rfl⟩
theorem eorAbs (a : Addr) : Statement (.eorAbs a) := ⟨rfl, rfl⟩
theorem lsrAbs (a : Addr) : Statement (.lsrAbs a) := ⟨rfl, rfl⟩
theorem sreAbs (a : Addr) : Statement (.sreAbs a) := ⟨rfl, rfl⟩
theorem bvc (b : Byte) : Statement (.bvc b) := ⟨rfl, rfl⟩
theorem eorIndY (b : Byte) : Statement (.eorIndY b) := ⟨rfl, rfl⟩
theorem unlisted52 : Statement .unlisted52 := ⟨rfl, rfl⟩
theorem sreIndY (b : Byte) : Statement (.sreIndY b) := ⟨rfl, rfl⟩
theorem unlisted54 : Statement .unlisted54 := ⟨rfl, rfl⟩
theorem eorZpX (b : Byte) : Statement (.eorZpX b) := ⟨rfl, rfl⟩
theorem lsrZpX (b : Byte) : Statement (.lsrZpX b) := ⟨rfl, rfl⟩
theorem sreZpX (b : Byte) : Statement (.sreZpX b) := ⟨rfl, rfl⟩
theorem cli : Statement .cli := ⟨rfl, rfl⟩
theorem eorAbsY (a : Addr) : Statement (.eorAbsY a) := ⟨rfl, rfl⟩
theorem unlisted5A : Statement .unlisted5A := ⟨rfl, rfl⟩
theorem sreAbsY (a : Addr) : Statement (.sreAbsY a) := ⟨rfl, rfl⟩
theorem unlisted5C : Statement .unlisted5C := ⟨rfl, rfl⟩
theorem eorAbsX (a : Addr) : Statement (.eorAbsX a) := ⟨rfl, rfl⟩
theorem lsrAbsX (a : Addr) : Statement (.lsrAbsX a) := ⟨rfl, rfl⟩
theorem sreAbsX (a : Addr) : Statement (.sreAbsX a) := ⟨rfl, rfl⟩
theorem rts : Statement .rts := ⟨rfl, rfl⟩
theorem adcIndX (b : Byte) : Statement (.adcIndX b) := ⟨rfl, rfl⟩
theorem unlisted62 : Statement .unlisted62 := ⟨rfl, rfl⟩
theorem rraIndX (b : Byte) : Statement (.rraIndX b) := ⟨rfl, rfl⟩
theorem unlisted64 : Statement .unlisted64 := ⟨rfl, rfl⟩
theorem adcZp (b : Byte) : Statement (.adcZp b) := ⟨rfl, rfl⟩
theorem rorZp (b : Byte) : Statement (.rorZp b) := ⟨rfl, rfl⟩
theorem rraZp (b : Byte) : Statement (.rraZp b) := ⟨rfl, rfl⟩
theorem pla : Statement .pla := ⟨rfl, rfl⟩
theorem adcImm (b : Byte) : Statement (.adcImm b) := ⟨rfl, rfl⟩
theorem rorAcc : Statement .rorAcc := ⟨rfl, rfl⟩
theorem arrImm (b : Byte) : Statement (.arrImm b) := ⟨rfl, rfl⟩
theorem jmpInd (a : Addr) : Statement (.jmpInd a) := ⟨rfl, rfl⟩
theorem adcAbs (a : Addr) : Statement (.adcAbs a) := ⟨rfl, rfl⟩
theorem rorAbs (a : Addr) : Statement (.rorAbs a) := ⟨rfl, rfl⟩
theorem rraAbs (a : Addr) : Statement (.rraAbs a) := ⟨rfl, rfl⟩
theorem bvs (b : Byte) : Statement (.bvs b) := ⟨rfl, rfl⟩
theorem adcIndY (b : Byte) : Statement (.adcIndY b) := ⟨rfl, rfl⟩
theorem unlisted72 : Statement .unlisted72 := ⟨rfl, rfl⟩
theorem rraIndY (b : Byte) : Statement (.rraIndY b) := ⟨rfl, rfl⟩
theorem unlisted74 : Statement .unlisted74 := ⟨rfl, rfl⟩
theorem adcZpX (b : Byte) : Statement (.adcZpX b) := ⟨rfl, rfl⟩
theorem rorZpX (b : Byte) : Statement (.rorZpX b) := ⟨rfl, rfl⟩
theorem rraZpX (b : Byte) : Statement (.rraZpX b) := ⟨rfl, rfl⟩
theorem sei : Statement .sei := ⟨rfl, rfl⟩
theorem adcAbsY (a : Addr) : Statement (.adcAbsY a) := ⟨rfl, rfl⟩
theorem unlisted7A : Statement .unlisted7A := ⟨rfl, rfl⟩
theorem rraAbsY (a : Addr) : Statement (.rraAbsY a) := ⟨rfl, rfl⟩
theorem unlisted7C : Statement .unlisted7C := ⟨rfl, rfl⟩
theorem adcAbsX (a : Addr) : Statement (.adcAbsX a) := ⟨rfl, rfl⟩
theorem rorAbsX (a : Addr) : Statement (.rorAbsX a) := ⟨rfl, rfl⟩
theorem rraAbsX (a : Addr) : Statement (.rraAbsX a) := ⟨rfl, rfl⟩
theorem unlisted80 : Statement .unlisted80 := ⟨rfl, rfl⟩
theorem staIndX (b : Byte) : Statement (.staIndX b) := ⟨rfl, rfl⟩
theorem unlisted82 : Statement .unlisted82 := ⟨rfl, rfl⟩
theorem saxIndX (b : Byte) : Statement (.saxIndX b) := ⟨rfl, rfl⟩
theorem styZp (b : Byte) : Statement (.styZp b) := ⟨rfl, rfl⟩
theorem staZp (b : Byte) : Statement (.staZp b) := ⟨rfl, rfl⟩
theorem stxZp (b : Byte) : Statement (.stxZp b) := ⟨rfl, rfl⟩
theorem saxZp (b : Byte) : Statement (.saxZp b) := ⟨rfl, rfl⟩
theorem dey : Statement .dey := ⟨rfl, rfl⟩
theorem unlisted89 : Statement .unlisted89 := ⟨rfl, rfl⟩
theorem txa : Statement .txa := ⟨rfl, rfl⟩
theorem unlisted8B : Statement .unlisted8B := ⟨rfl, rfl⟩
theorem styAbs (a : Addr) : Statement (.styAbs a) := ⟨rfl, rfl⟩
theorem staAbs (a : Addr) : Statement (.staAbs a) := ⟨rfl, rfl⟩
theorem stxAbs (a : Addr) : Statement (.stxAbs a) := ⟨rfl, rfl⟩
theorem saxAbs (a : Addr) : Statement (.saxAbs a) := ⟨rfl, rfl⟩
theorem bcc (b : Byte) : Statement (.bcc b) := ⟨rfl, rfl⟩
theorem staIndY (b : Byte) : Statement (.staIndY b) := ⟨rfl, rfl⟩
theorem unlisted92 : Statement .unlisted92 := ⟨rfl, rfl⟩
theorem unlisted93 : Statement .unlisted93 := ⟨rfl, rfl⟩
theorem styZpX (b : Byte) : Statement (.styZpX b) := ⟨rfl, rfl⟩
theorem staZpX (b : Byte) : Statement (.staZpX b) := ⟨rfl, rfl⟩
theorem stxZpY (b : Byte) : Statement (.stxZpY b) := ⟨rfl, rfl⟩
theorem saxZpY (b : Byte) : Statement (.saxZpY b) := ⟨rfl, rfl⟩
theorem tya : Statement .tya := ⟨rfl, rfl⟩
theorem staAbsY (a : Addr) : Statement (.staAbsY a) := ⟨rfl, rfl⟩
theorem txs : Statement .txs := ⟨rfl, rfl⟩
theorem unlisted9B : Statement .unlisted9B := ⟨rfl, rfl⟩
theorem unlisted9C : Statement .unlisted9C := ⟨rfl, rfl⟩
theorem staAbsX (a : Addr) : Statement (.staAbsX a) := ⟨rfl, rfl⟩
theorem unlisted9E : Statement .unlisted9E := ⟨rfl, rfl⟩
theorem unlisted9F : Statement .unlisted9F := ⟨rfl, rfl⟩
theorem ldyImm (b : Byte) : Statement (.ldyImm b) := ⟨rfl, rfl⟩
theorem ldaIndX (b : Byte) : Statement (.ldaIndX b) := ⟨rfl, rfl⟩
theorem ldxImm (b : Byte) : Statement (.ldxImm b) := ⟨rfl, rfl⟩
theorem laxIndX (b : Byte) : Statement (.laxIndX b) := ⟨rfl, rfl⟩
theorem ldyZp (b : Byte) : Statement (.ldyZp b) := ⟨rfl, rfl⟩
theorem ldaZp (b : Byte) : Statement (.ldaZp b) := ⟨rfl, rfl⟩
theorem ldxZp (b : Byte) : Statement (.ldxZp b) := ⟨rfl, rfl⟩
theorem laxZp (b : Byte) : Statement (.laxZp b) := ⟨rfl, rfl⟩
theorem tay : Statement .tay := ⟨rfl, rfl⟩
theorem ldaImm (b : Byte) : Statement (.ldaImm b) := ⟨rfl, rfl⟩
theorem tax : Statement .tax := ⟨rfl, rfl⟩
theorem unlistedAB : Statement .unlistedAB := ⟨rfl, rfl⟩
theorem ldyAbs (a : Addr) : Statement (.ldyAbs a) := ⟨rfl, rfl⟩
theorem ldaAbs (a : Addr) : Statement (.ldaAbs a) := ⟨rfl, rfl⟩
theorem ldxAbs (a : Addr) : Statement (.ldxAbs a) := ⟨rfl, rfl⟩
theorem laxAbs (a : Addr) : Statement (.laxAbs a) := ⟨rfl, rfl⟩
theorem bcs (b : Byte) : Statement (.bcs b) := ⟨rfl, rfl⟩
theorem ldaIndY (b : Byte) : Statement (.ldaIndY b) := ⟨rfl, rfl⟩
theorem unlistedB2 : Statement .unlistedB2 := ⟨rfl, rfl⟩
theorem laxIndY (b : Byte) : Statement (.laxIndY b) := ⟨rfl, rfl⟩
theorem ldyZpX (b : Byte) : Statement (.ldyZpX b) := ⟨rfl, rfl⟩
theorem ldaZpX (b : Byte) : Statement (.ldaZpX b) := ⟨rfl, rfl⟩
theorem ldxZpY (b : Byte) : Statement (.ldxZpY b) := ⟨rfl, rfl⟩
theorem laxZpY (b : Byte) : Statement (.laxZpY b) := ⟨rfl, rfl⟩
theorem clv : Statement .clv := ⟨rfl, rfl⟩
theorem ldaAbsY (a : Addr) : Statement (.ldaAbsY a) := ⟨rfl, rfl⟩
theorem tsx : Statement .tsx := ⟨rfl, rfl⟩
theorem unlistedBB : Statement .unlistedBB := ⟨rfl, rfl⟩
theorem ldyAbsX (a : Addr) : Statement (.ldyAbsX a) := ⟨rfl, rfl⟩
theorem ldaAbsX (a : Addr) : Statement (.ldaAbsX a) := ⟨rfl, rfl⟩
theorem ldxAbsY (a : Addr) : Statement (.ldxAbsY a) := ⟨rfl, rfl⟩
theorem unlistedBF : Statement .unlistedBF := ⟨rfl, rfl⟩
theorem cpyImm (b : Byte) : Statement (.cpyImm b) := ⟨rfl, rfl⟩
theorem cmpIndX (b : Byte) : Statement (.cmpIndX b) := ⟨rfl, rfl⟩
theorem unlistedC2 : Statement .unlistedC2 := ⟨rfl, rfl⟩
theorem dcpIndX (b : Byte) : Statement (.dcpIndX b) := ⟨rfl, rfl⟩
theorem cpyZp (b : Byte) : Statement (.cpyZp b) := ⟨rfl, rfl⟩
theorem cmpZp (b : Byte) : Statement (.cmpZp b) := ⟨rfl, rfl⟩
theorem decZp (b : Byte) : Statement (.decZp b) := ⟨rfl, rfl⟩
theorem dcpZp (b : Byte) : Statement (.dcpZp b) := ⟨rfl, rfl⟩
theorem iny : Statement .iny := ⟨rfl, rfl⟩
theorem cmpImm (b : Byte) : Statement (.cmpImm b) := ⟨rfl, rfl⟩
theorem dex : Statement .dex := ⟨rfl, rfl⟩
theorem axsImm (b : Byte) : Statement (.axsImm b) := ⟨rfl, rfl⟩
theorem cpyAbs (a : Addr) : Statement (.cpyAbs a) := ⟨rfl, rfl⟩
theorem cmpAbs (a : Addr) : Statement (.cmpAbs a) := ⟨rfl, rfl⟩
theorem decAbs (a : Addr) : Statement (.decAbs a) := ⟨rfl, rfl⟩
theorem dcpAbs (a : Addr) : Statement (.dcpAbs a) := ⟨rfl, rfl⟩
theorem bne (b : Byte) : Statement (.bne b) := ⟨rfl, rfl⟩
theorem cmpIndY (b : Byte) : Statement (.cmpIndY b) := ⟨rfl, rfl⟩
theorem unlistedD2 : Statement .unlistedD2 := ⟨rfl, rfl⟩
theorem dcpIndY (b : Byte) : Statement (.dcpIndY b) := ⟨rfl, rfl⟩
theorem unlistedD4 : Statement .unlistedD4 := ⟨rfl, rfl⟩
theorem cmpZpX (b : Byte) : Statement (.cmpZpX b) := ⟨rfl, rfl⟩
theorem decZpX (b : Byte) : Statement (.decZpX b) := ⟨rfl, rfl⟩
theorem dcpZpX (b : Byte) : Statement (.dcpZpX b) := ⟨rfl, rfl⟩
theorem cld : Statement .cld := ⟨rfl, rfl⟩
theorem cmpAbsY (a : Addr) : Statement (.cmpAbsY a) := ⟨rfl, rfl⟩
theorem unlistedDA : Statement .unlistedDA := ⟨rfl, rfl⟩
theorem dcpAbsY (a : Addr) : Statement (.dcpAbsY a) := ⟨rfl, rfl⟩
theorem unlistedDC : Statement .unlistedDC := ⟨rfl, rfl⟩
theorem cmpAbsX (a : Addr) : Statement (.cmpAbsX a) := ⟨rfl, rfl⟩
theorem decAbsX (a : Addr) : Statement (.decAbsX a) := ⟨rfl, rfl⟩
theorem dcpAbsX (a : Addr) : Statement (.dcpAbsX a) := ⟨rfl, rfl⟩
theorem cpxImm (b : Byte) : Statement (.cpxImm b) := ⟨rfl, rfl⟩
theorem sbcIndX (b : Byte) : Statement (.sbcIndX b) := ⟨rfl, rfl⟩
theorem unlistedE2 : Statement .unlistedE2 := ⟨rfl, rfl⟩
theorem iscIndX (b : Byte) : Statement (.iscIndX b) := ⟨rfl, rfl⟩
theorem cpxZp (b : Byte) : Statement (.cpxZp b) := ⟨rfl, rfl⟩
theorem sbcZp (b : Byte) : Statement (.sbcZp b) := ⟨rfl, rfl⟩
theorem incZp (b : Byte) : Statement (.incZp b) := ⟨rfl, rfl⟩
theorem iscZp (b : Byte) : Statement (.iscZp b) := ⟨rfl, rfl⟩
theorem inx : Statement .inx := ⟨rfl, rfl⟩
theorem sbcImm (b : Byte) : Statement (.sbcImm b) := ⟨rfl, rfl⟩
theorem nop : Statement .nop := ⟨rfl, rfl⟩
theorem unlistedEB : Statement .unlistedEB := ⟨rfl, rfl⟩
theorem cpxAbs (a : Addr) : Statement (.cpxAbs a) := ⟨rfl, rfl⟩
theorem sbcAbs (a : Addr) : Statement (.sbcAbs a) := ⟨rfl, rfl⟩
theorem incAbs (a : Addr) : Statement (.incAbs a) := ⟨rfl, rfl⟩
theorem iscAbs (a : Addr) : Statement (.iscAbs a) := ⟨rfl, rfl⟩
theorem beq (b : Byte) : Statement (.beq b) := ⟨rfl, rfl⟩
theorem sbcIndY (b : Byte) : Statement (.sbcIndY b) := ⟨rfl, rfl⟩
theorem unlistedF2 : Statement .unlistedF2 := ⟨rfl, rfl⟩
theorem iscIndY (b : Byte) : Statement (.iscIndY b) := ⟨rfl, rfl⟩
theorem unlistedF4 : Statement .unlistedF4 := ⟨rfl, rfl⟩
theorem sbcZpX (b : Byte) : Statement (.sbcZpX b) := ⟨rfl, rfl⟩
theorem incZpX (b : Byte) : Statement (.incZpX b) := ⟨rfl, rfl⟩
theorem iscZpX (b : Byte) : Statement (.iscZpX b) := ⟨rfl, rfl⟩
theorem sed : Statement .sed := ⟨rfl, rfl⟩
theorem sbcAbsY (a : Addr) : Statement (.sbcAbsY a) := ⟨rfl, rfl⟩
theorem unlistedFA : Statement .unlistedFA := ⟨rfl, rfl⟩
theorem iscAbsY (a : Addr) : Statement (.iscAbsY a) := ⟨rfl, rfl⟩
theorem unlistedFC : Statement .unlistedFC := ⟨rfl, rfl⟩
theorem sbcAbsX (a : Addr) : Statement (.sbcAbsX a) := ⟨rfl, rfl⟩
theorem incAbsX (a : Addr) : Statement (.incAbsX a) := ⟨rfl, rfl⟩
theorem iscAbsX (a : Addr) : Statement (.iscAbsX a) := ⟨rfl, rfl⟩

end Sys2Proof.Laws.EncodedLength
end

