-- ==== Sys2Proof/Tests/Slice0.lean ====
section
/-!
SUPPORT. The model's own tests: the check of WellFormed, every opcode byte decoded from a word written out from the opcode
table, single steps whose expected results are the vectors of 95_test_vectors.md, and for every statement with hypotheses one
witness that meets them.
-/

namespace Sys2Proof.Tests.Slice0

open Sys2Proof Sys2Proof.Machine

/-! ### WellFormed and the table interface -/

/-- The one ill-formed term of each kind: an opcode byte that no table of the source lists (30_encoding.md R82). -/
theorem test_wellFormed_refuses_unlisted : (Instr.unlisted02).WellFormed = false ∧ (Instr.unlistedFC).WellFormed = false := by
  decide

theorem test_wellFormed_accepts_listed : (Instr.ldaImm 0xFF).WellFormed = true ∧ (Instr.laxIndY 0x00).WellFormed = true := by
  decide

/-- The decoder refuses by name where bytes are missing. -/
theorem test_decode_refuses_missing_bytes :
    (match decode [] with | .error _ => true | .ok _ => false) = true ∧
    (match decode [0xAD, 0x34] with | .error _ => true | .ok _ => false) = true := ⟨rfl, rfl⟩

/-- The opcode table numbers the second byte as bits 15..8; bits above `nbits` are zero. -/
theorem test_decodeTableWord : decodeTableWord 16 0x7FA9 = some (.ldaImm 0x7F) ∧
    decodeTableWord 8 0x8D = some (.staAbs 0x0000) ∧ decodeTableWord 24 0x12348D = some (.staAbs 0x1234) := ⟨rfl, rfl, rfl⟩

/-! ### Every opcode byte

One theorem for each row of the matrix of 30_encoding.md R75; the operand bytes are `9C`, or `34 9C` with the low byte first
(R73). -/

theorem test_decode_row_0 :
    decode [0x00] = .ok (.brk, []) ∧
    decode [0x01, 0x9C] = .ok (.oraIndX 0x9C, []) ∧
    decode [0x02] = .ok (.unlisted02, []) ∧
    decode [0x03, 0x9C] = .ok (.sloIndX 0x9C, []) ∧
    decode [0x04] = .ok (.unlisted04, []) ∧
    decode [0x05, 0x9C] = .ok (.oraZp 0x9C, []) ∧
    decode [0x06, 0x9C] = .ok (.aslZp 0x9C, []) ∧
    decode [0x07, 0x9C] = .ok (.sloZp 0x9C, []) ∧
    decode [0x08] = .ok (.php, []) ∧
    decode [0x09, 0x9C] = .ok (.oraImm 0x9C, []) ∧
    decode [0x0A] = .ok (.aslAcc, []) ∧
    decode [0x0B, 0x9C] = .ok (.ancImm0B 0x9C, []) ∧
    decode [0x0C] = .ok (.unlisted0C, []) ∧
    decode [0x0D, 0x34, 0x9C] = .ok (.oraAbs 0x9C34, []) ∧
    decode [0x0E, 0x34, 0x9C] = .ok (.aslAbs 0x9C34, []) ∧
    decode [0x0F, 0x34, 0x9C] = .ok (.sloAbs 0x9C34, []) := by
  refine ⟨rfl, rfl, rfl, rfl, rfl, rfl, rfl, rfl, rfl, rfl, rfl, rfl, rfl, rfl, rfl, rfl⟩

theorem test_decode_row_1 :
    decode [0x10, 0x9C] = .ok (.bpl 0x9C, []) ∧
    decode [0x11, 0x9C] = .ok (.oraIndY 0x9C, []) ∧
    decode [0x12] = .ok (.unlisted12, []) ∧
    decode [0x13, 0x9C] = .ok (.sloIndY 0x9C, []) ∧
    decode [0x14] = .ok (.unlisted14, []) ∧
    decode [0x15, 0x9C] = .ok (.oraZpX 0x9C, []) ∧
    decode [0x16, 0x9C] = .ok (.aslZpX 0x9C, []) ∧
    decode [0x17, 0x9C] = .ok (.sloZpX 0x9C, []) ∧
    decode [0x18] = .ok (.clc, []) ∧
    decode [0x19, 0x34, 0x9C] = .ok (.oraAbsY 0x9C34, []) ∧
    decode [0x1A] = .ok (.unlisted1A, []) ∧
    decode [0x1B, 0x34, 0x9C] = .ok (.sloAbsY 0x9C34, []) ∧
    decode [0x1C] = .ok (.unlisted1C, []) ∧
    decode [0x1D, 0x34, 0x9C] = .ok (.oraAbsX 0x9C34, []) ∧
    decode [0x1E, 0x34, 0x9C] = .ok (.aslAbsX 0x9C34, []) ∧
    decode [0x1F, 0x34, 0x9C] = .ok (.sloAbsX 0x9C34, []) := by
  refine ⟨rfl, rfl, rfl, rfl, rfl, rfl, rfl, rfl, rfl, rfl, rfl, rfl, rfl, rfl, rfl, rfl⟩

theorem test_decode_row_2 :
    decode [0x20, 0x34, 0x9C] = .ok (.jsr 0x9C34, []) ∧
    decode [0x21, 0x9C] = .ok (.andIndX 0x9C, []) ∧
    decode [0x22] = .ok (.unlisted22, []) ∧
    decode [0x23, 0x9C] = .ok (.rlaIndX 0x9C, []) ∧
    decode [0x24, 0x9C] = .ok (.bitZp 0x9C, []) ∧
    decode [0x25, 0x9C] = .ok (.andZp 0x9C, []) ∧
    decode [0x26, 0x9C] = .ok (.rolZp 0x9C, []) ∧
    decode [0x27, 0x9C] = .ok (.rlaZp 0x9C, []) ∧
    decode [0x28] = .ok (.plp, []) ∧
    decode [0x29, 0x9C] = .ok (.andImm 0x9C, []) ∧
    decode [0x2A] = .ok (.rolAcc, []) ∧
    decode [0x2B, 0x9C] = .ok (.ancImm2B 0x9C, []) ∧
    decode [0x2C, 0x34, 0x9C] = .ok (.bitAbs 0x9C34, []) ∧
    decode [0x2D, 0x34, 0x9C] = .ok (.andAbs 0x9C34, []) ∧
    decode [0x2E, 0x34, 0x9C] = .ok (.rolAbs 0x9C34, []) ∧
    decode [0x2F, 0x34, 0x9C] = .ok (.rlaAbs 0x9C34, []) := by
  refine ⟨rfl, rfl, rfl, rfl, rfl, rfl, rfl, rfl, rfl, rfl, rfl, rfl, rfl, rfl, rfl, rfl⟩

theorem test_decode_row_3 :
    decode [0x30, 0x9C] = .ok (.bmi 0x9C, []) ∧
    decode [0x31, 0x9C] = .ok (.andIndY 0x9C, []) ∧
    decode [0x32] = .ok (.unlisted32, []) ∧
    decode [0x33, 0x9C] = .ok (.rlaIndY 0x9C, []) ∧
    decode [0x34] = .ok (.unlisted34, []) ∧
    decode [0x35, 0x9C] = .ok (.andZpX 0x9C, []) ∧
    decode [0x36, 0x9C] = .ok (.rolZpX 0x9C, []) ∧
    decode [0x37, 0x9C] = .ok (.rlaZpX 0x9C, []) ∧
    decode [0x38] = .ok (.sec, []) ∧
    decode [0x39, 0x34, 0x9C] = .ok (.andAbsY 0x9C34, []) ∧
    decode [0x3A] = .ok (.unlisted3A, []) ∧
    decode [0x3B, 0x34, 0x9C] = .ok (.rlaAbsY 0x9C34, []) ∧
    decode [0x3C] = .ok (.unlisted3C, []) ∧
    decode [0x3D, 0x34, 0x9C] = .ok (.andAbsX 0x9C34, []) ∧
    decode [0x3E, 0x34, 0x9C] = .ok (.rolAbsX 0x9C34, []) ∧
    decode [0x3F, 0x34, 0x9C] = .ok (.rlaAbsX 0x9C34, []) := by
  refine ⟨rfl, rfl, rfl, rfl, rfl, rfl, rfl, rfl, rfl, rfl, rfl, rfl, rfl, rfl, rfl, rfl⟩

theorem test_decode_row_4 :
    decode [0x40] = .ok (.rti, []) ∧
    decode [0x41, 0x9C] = .ok (.eorIndX 0x9C, []) ∧
    decode [0x42] = .ok (.unlisted42, []) ∧
    decode [0x43, 0x9C] = .ok (.sreIndX 0x9C, []) ∧
    decode [0x44] = .ok (.unlisted44, []) ∧
    decode [0x45, 0x9C] = .ok (.eorZp 0x9C, []) ∧
    decode [0x46, 0x9C] = .ok (.lsrZp 0x9C, []) ∧
    decode [0x47, 0x9C] = .ok (.sreZp 0x9C, []) ∧
    decode [0x48] = .ok (.pha, []) ∧
    decode [0x49, 0x9C] = .ok (.eorImm 0x9C, []) ∧
    decode [0x4A] = .ok (.lsrAcc, []) ∧
    decode [0x4B, 0x9C] = .ok (.alrImm 0x9C, []) ∧
    decode [0x4C, 0x34, 0x9C] = .ok (.jmpAbs 0x9C34, []) ∧
    decode [0x4D, 0x34, 0x9C] = .ok (.eorAbs 0x9C34, []) ∧
    decode [0x4E, 0x34, 0x9C] = .ok (.lsrAbs 0x9C34, []) ∧
    decode [0x4F, 0x34, 0x9C] = .ok (.sreAbs 0x9C34, []) := by
  refine ⟨rfl, rfl, rfl, rfl, rfl, rfl, rfl, rfl, rfl, rfl, rfl, rfl, rfl, rfl, rfl, rfl⟩

theorem test_decode_row_5 :
    decode [0x50, 0x9C] = .ok (.bvc 0x9C, []) ∧
    decode [0x51, 0x9C] = .ok (.eorIndY 0x9C, []) ∧
    decode [0x52] = .ok (.unlisted52, []) ∧
    decode [0x53, 0x9C] = .ok (.sreIndY 0x9C, []) ∧
    decode [0x54] = .ok (.unlisted54, []) ∧
    decode [0x55, 0x9C] = .ok (.eorZpX 0x9C, []) ∧
    decode [0x56, 0x9C] = .ok (.lsrZpX 0x9C, []) ∧
    decode [0x57, 0x9C] = .ok (.sreZpX 0x9C, []) ∧
    decode [0x58] = .ok (.cli, []) ∧
    decode [0x59, 0x34, 0x9C] = .ok (.eorAbsY 0x9C34, []) ∧
    decode [0x5A] = .ok (.unlisted5A, []) ∧
    decode [0x5B, 0x34, 0x9C] = .ok (.sreAbsY 0x9C34, []) ∧
    decode [0x5C] = .ok (.unlisted5C, []) ∧
    decode [0x5D, 0x34, 0x9C] = .ok (.eorAbsX 0x9C34, []) ∧
    decode [0x5E, 0x34, 0x9C] = .ok (.lsrAbsX 0x9C34, []) ∧
    decode [0x5F, 0x34, 0x9C] = .ok (.sreAbsX 0x9C34, []) := by
  refine ⟨rfl, rfl, rfl, rfl, rfl, rfl, rfl, rfl, rfl, rfl, rfl, rfl, rfl, rfl, rfl, rfl⟩

theorem test_decode_row_6 :
    decode [0x60] = .ok (.rts, []) ∧
    decode [0x61, 0x9C] = .ok (.adcIndX 0x9C, []) ∧
    decode [0x62] = .ok (.unlisted62, []) ∧
    decode [0x63, 0x9C] = .ok (.rraIndX 0x9C, []) ∧
    decode [0x64] = .ok (.unlisted64, []) ∧
    decode [0x65, 0x9C] = .ok (.adcZp 0x9C, []) ∧
    decode [0x66, 0x9C] = .ok (.rorZp 0x9C, []) ∧
    decode [0x67, 0x9C] = .ok (.rraZp 0x9C, []) ∧
    decode [0x68] = .ok (.pla, []) ∧
    decode [0x69, 0x9C] = .ok (.adcImm 0x9C, []) ∧
    decode [0x6A] = .ok (.rorAcc, []) ∧
    decode [0x6B, 0x9C] = .ok (.arrImm 0x9C, []) ∧
    decode [0x6C, 0x34, 0x9C] = .ok (.jmpInd 0x9C34, []) ∧
    decode [0x6D, 0x34, 0x9C] = .ok (.adcAbs 0x9C34, []) ∧
    decode [0x6E, 0x34, 0x9C] = .ok (.rorAbs 0x9C34, []) ∧
    decode [0x6F, 0x34, 0x9C] = .ok (.rraAbs 0x9C34, []) := by
  refine ⟨rfl, rfl, rfl, rfl, rfl, rfl, rfl, rfl, rfl, rfl, rfl, rfl, rfl, rfl, rfl, rfl⟩

theorem test_decode_row_7 :
    decode [0x70, 0x9C] = .ok (.bvs 0x9C, []) ∧
    decode [0x71, 0x9C] = .ok (.adcIndY 0x9C, []) ∧
    decode [0x72] = .ok (.unlisted72, []) ∧
    decode [0x73, 0x9C] = .ok (.rraIndY 0x9C, []) ∧
    decode [0x74] = .ok (.unlisted74, []) ∧
    decode [0x75, 0x9C] = .ok (.adcZpX 0x9C, []) ∧
    decode [0x76, 0x9C] = .ok (.rorZpX 0x9C, []) ∧
    decode [0x77, 0x9C] = .ok (.rraZpX 0x9C, []) ∧
    decode [0x78] = .ok (.sei, []) ∧
    decode [0x79, 0x34, 0x9C] = .ok (.adcAbsY 0x9C34, []) ∧
    decode [0x7A] = .ok (.unlisted7A, []) ∧
    decode [0x7B, 0x34, 0x9C] = .ok (.rraAbsY 0x9C34, []) ∧
    decode [0x7C] = .ok (.unlisted7C, []) ∧
    decode [0x7D, 0x34, 0x9C] = .ok (.adcAbsX 0x9C34, []) ∧
    decode [0x7E, 0x34, 0x9C] = .ok (.rorAbsX 0x9C34, []) ∧
    decode [0x7F, 0x34, 0x9C] = .ok (.rraAbsX 0x9C34, []) := by
  refine ⟨rfl, rfl, rfl, rfl, rfl, rfl, rfl, rfl, rfl, rfl, rfl, rfl, rfl, rfl, rfl, rfl⟩

theorem test_decode_row_8 :
    decode [0x80] = .ok (.unlisted80, []) ∧
    decode [0x81, 0x9C] = .ok (.staIndX 0x9C, []) ∧
    decode [0x82] = .ok (.unlisted82, []) ∧
    decode [0x83, 0x9C] = .ok (.saxIndX 0x9C, []) ∧
    decode [0x84, 0x9C] = .ok (.styZp 0x9C, []) ∧
    decode [0x85, 0x9C] = .ok (.staZp 0x9C, []) ∧
    decode [0x86, 0x9C] = .ok (.stxZp 0x9C, []) ∧
    decode [0x87, 0x9C] = .ok (.saxZp 0x9C, []) ∧
    decode [0x88] = .ok (.dey, []) ∧
    decode [0x89] = .ok (.unlisted89, []) ∧
    decode [0x8A] = .ok (.txa, []) ∧
    decode [0x8B] = .ok (.unlisted8B, []) ∧
    decode [0x8C, 0x34, 0x9C] = .ok (.styAbs 0x9C34, []) ∧
    decode [0x8D, 0x34, 0x9C] = .ok (.staAbs 0x9C34, []) ∧
    decode [0x8E, 0x34, 0x9C] = .ok (.stxAbs 0x9C34, []) ∧
    decode [0x8F, 0x34, 0x9C] = .ok (.saxAbs 0x9C34, []) := by
  refine ⟨rfl, rfl, rfl, rfl, rfl, rfl, rfl, rfl, rfl, rfl, rfl, rfl, rfl, rfl, rfl, rfl⟩

theorem test_decode_row_9 :
    decode [0x90, 0x9C] = .ok (.bcc 0x9C, []) ∧
    decode [0x91, 0x9C] = .ok (.staIndY 0x9C, []) ∧
    decode [0x92] = .ok (.unlisted92, []) ∧
    decode [0x93] = .ok (.unlisted93, []) ∧
    decode [0x94, 0x9C] = .ok (.styZpX 0x9C, []) ∧
    decode [0x95, 0x9C] = .ok (.staZpX 0x9C, []) ∧
    decode [0x96, 0x9C] = .ok (.stxZpY 0x9C, []) ∧
    decode [0x97, 0x9C] = .ok (.saxZpY 0x9C, []) ∧
    decode [0x98] = .ok (.tya, []) ∧
    decode [0x99, 0x34, 0x9C] = .ok (.staAbsY 0x9C34, []) ∧
    decode [0x9A] = .ok (.txs, []) ∧
    decode [0x9B] = .ok (.unlisted9B, []) ∧
    decode [0x9C] = .ok (.unlisted9C, []) ∧
    decode [0x9D, 0x34, 0x9C] = .ok (.staAbsX 0x9C34, []) ∧
    decode [0x9E] = .ok (.unlisted9E, []) ∧
    decode [0x9F] = .ok (.unlisted9F, []) := by
  refine ⟨rfl, rfl, rfl, rfl, rfl, rfl, rfl, rfl, rfl, rfl, rfl, rfl, rfl, rfl, rfl, rfl⟩

theorem test_decode_row_A :
    decode [0xA0, 0x9C] = .ok (.ldyImm 0x9C, []) ∧
    decode [0xA1, 0x9C] = .ok (.ldaIndX 0x9C, []) ∧
    decode [0xA2, 0x9C] = .ok (.ldxImm 0x9C, []) ∧
    decode [0xA3, 0x9C] = .ok (.laxIndX 0x9C, []) ∧
    decode [0xA4, 0x9C] = .ok (.ldyZp 0x9C, []) ∧
    decode [0xA5, 0x9C] = .ok (.ldaZp 0x9C, []) ∧
    decode [0xA6, 0x9C] = .ok (.ldxZp 0x9C, []) ∧
    decode [0xA7, 0x9C] = .ok (.laxZp 0x9C, []) ∧
    decode [0xA8] = .ok (.tay, []) ∧
    decode [0xA9, 0x9C] = .ok (.ldaImm 0x9C, []) ∧
    decode [0xAA] = .ok (.tax, []) ∧
    decode [0xAB] = .ok (.unlistedAB, []) ∧
    decode [0xAC, 0x34, 0x9C] = .ok (.ldyAbs 0x9C34, []) ∧
    decode [0xAD, 0x34, 0x9C] = .ok (.ldaAbs 0x9C34, []) ∧
    decode [0xAE, 0x34, 0x9C] = .ok (.ldxAbs 0x9C34, []) ∧
    decode [0xAF, 0x34, 0x9C] = .ok (.laxAbs 0x9C34, []) := by
  refine ⟨rfl, rfl, rfl, rfl, rfl, rfl, rfl, rfl, rfl, rfl, rfl, rfl, rfl, rfl, rfl, rfl⟩

theorem test_decode_row_B :
    decode [0xB0, 0x9C] = .ok (.bcs 0x9C, []) ∧
    decode [0xB1, 0x9C] = .ok (.ldaIndY 0x9C, []) ∧
    decode [0xB2] = .ok (.unlistedB2, []) ∧
    decode [0xB3, 0x9C] = .ok (.laxIndY 0x9C, []) ∧
    decode [0xB4, 0x9C] = .ok (.ldyZpX 0x9C, []) ∧
    decode [0xB5, 0x9C] = .ok (.ldaZpX 0x9C, []) ∧
    decode [0xB6, 0x9C] = .ok (.ldxZpY 0x9C, []) ∧
    decode [0xB7, 0x9C] = .ok (.laxZpY 0x9C, []) ∧
    decode [0xB8] = .ok (.clv, []) ∧
    decode [0xB9, 0x34, 0x9C] = .ok (.ldaAbsY 0x9C34, []) ∧
    decode [0xBA] = .ok (.tsx, []) ∧
    decode [0xBB] = .ok (.unlistedBB, []) ∧
    decode [0xBC, 0x34, 0x9C] = .ok (.ldyAbsX 0x9C34, []) ∧
    decode [0xBD, 0x34, 0x9C] = .ok (.ldaAbsX 0x9C34, []) ∧
    decode [0xBE, 0x34, 0x9C] = .ok (.ldxAbsY 0x9C34, []) ∧
    decode [0xBF] = .ok (.unlistedBF, []) := by
  refine ⟨rfl, rfl, rfl, rfl, rfl, rfl, rfl, rfl, rfl, rfl, rfl, rfl, rfl, rfl, rfl, rfl⟩

theorem test_decode_row_C :
    decode [0xC0, 0x9C] = .ok (.cpyImm 0x9C, []) ∧
    decode [0xC1, 0x9C] = .ok (.cmpIndX 0x9C, []) ∧
    decode [0xC2] = .ok (.unlistedC2, []) ∧
    decode [0xC3, 0x9C] = .ok (.dcpIndX 0x9C, []) ∧
    decode [0xC4, 0x9C] = .ok (.cpyZp 0x9C, []) ∧
    decode [0xC5, 0x9C] = .ok (.cmpZp 0x9C, []) ∧
    decode [0xC6, 0x9C] = .ok (.decZp 0x9C, []) ∧
    decode [0xC7, 0x9C] = .ok (.dcpZp 0x9C, []) ∧
    decode [0xC8] = .ok (.iny, []) ∧
    decode [0xC9, 0x9C] = .ok (.cmpImm 0x9C, []) ∧
    decode [0xCA] = .ok (.dex, []) ∧
    decode [0xCB, 0x9C] = .ok (.axsImm 0x9C, []) ∧
    decode [0xCC, 0x34, 0x9C] = .ok (.cpyAbs 0x9C34, []) ∧
    decode [0xCD, 0x34, 0x9C] = .ok (.cmpAbs 0x9C34, []) ∧
    decode [0xCE, 0x34, 0x9C] = .ok (.decAbs 0x9C34, []) ∧
    decode [0xCF, 0x34, 0x9C] = .ok (.dcpAbs 0x9C34, []) := by
  refine ⟨rfl, rfl, rfl, rfl, rfl, rfl, rfl, rfl, rfl, rfl, rfl, rfl, rfl, rfl, rfl, rfl⟩

theorem test_decode_row_D :
    decode [0xD0, 0x9C] = .ok (.bne 0x9C, []) ∧
    decode [0xD1, 0x9C] = .ok (.cmpIndY 0x9C, []) ∧
    decode [0xD2] = .ok (.unlistedD2, []) ∧
    decode [0xD3, 0x9C] = .ok (.dcpIndY 0x9C, []) ∧
    decode [0xD4] = .ok (.unlistedD4, []) ∧
    decode [0xD5, 0x9C] = .ok (.cmpZpX 0x9C, []) ∧
    decode [0xD6, 0x9C] = .ok (.decZpX 0x9C, []) ∧
    decode [0xD7, 0x9C] = .ok (.dcpZpX 0x9C, []) ∧
    decode [0xD8] = .ok (.cld, []) ∧
    decode [0xD9, 0x34, 0x9C] = .ok (.cmpAbsY 0x9C34, []) ∧
    decode [0xDA] = .ok (.unlistedDA, []) ∧
    decode [0xDB, 0x34, 0x9C] = .ok (.dcpAbsY 0x9C34, []) ∧
    decode [0xDC] = .ok (.unlistedDC, []) ∧
    decode [0xDD, 0x34, 0x9C] = .ok (.cmpAbsX 0x9C34, []) ∧
    decode [0xDE, 0x34, 0x9C] = .ok (.decAbsX 0x9C34, []) ∧
    decode [0xDF, 0x34, 0x9C] = .ok (.dcpAbsX 0x9C34, []) := by
  refine ⟨rfl, rfl, rfl, rfl, rfl, rfl, rfl, rfl, rfl, rfl, rfl, rfl, rfl, rfl, rfl, rfl⟩

theorem test_decode_row_E :
    decode [0xE0, 0x9C] = .ok (.cpxImm 0x9C, []) ∧
    decode [0xE1, 0x9C] = .ok (.sbcIndX 0x9C, []) ∧
    decode [0xE2] = .ok (.unlistedE2, []) ∧
    decode [0xE3, 0x9C] = .ok (.iscIndX 0x9C, []) ∧
    decode [0xE4, 0x9C] = .ok (.cpxZp 0x9C, []) ∧
    decode [0xE5, 0x9C] = .ok (.sbcZp 0x9C, []) ∧
    decode [0xE6, 0x9C] = .ok (.incZp 0x9C, []) ∧
    decode [0xE7, 0x9C] = .ok (.iscZp 0x9C, []) ∧
    decode [0xE8] = .ok (.inx, []) ∧
    decode [0xE9, 0x9C] = .ok (.sbcImm 0x9C, []) ∧
    decode [0xEA] = .ok (.nop, []) ∧
    decode [0xEB] = .ok (.unlistedEB, []) ∧
    decode [0xEC, 0x34, 0x9C] = .ok (.cpxAbs 0x9C34, []) ∧
    decode [0xED, 0x34, 0x9C] = .ok (.sbcAbs 0x9C34, []) ∧
    decode [0xEE, 0x34, 0x9C] = .ok (.incAbs 0x9C34, []) ∧
    decode [0xEF, 0x34, 0x9C] = .ok (.iscAbs 0x9C34, []) := by
  refine ⟨rfl, rfl, rfl, rfl, rfl, rfl, rfl, rfl, rfl, rfl, rfl, rfl, rfl, rfl, rfl, rfl⟩

theorem test_decode_row_F :
    decode [0xF0, 0x9C] = .ok (.beq 0x9C, []) ∧
    decode [0xF1, 0x9C] = .ok (.sbcIndY 0x9C, []) ∧
    decode [0xF2] = .ok (.unlistedF2, []) ∧
    decode [0xF3, 0x9C] = .ok (.iscIndY 0x9C, []) ∧
    decode [0xF4] = .ok (.unlistedF4, []) ∧
    decode [0xF5, 0x9C] = .ok (.sbcZpX 0x9C, []) ∧
    decode [0xF6, 0x9C] = .ok (.incZpX 0x9C, []) ∧
    decode [0xF7, 0x9C] = .ok (.iscZpX 0x9C, []) ∧
    decode [0xF8] = .ok (.sed, []) ∧
    decode [0xF9, 0x34, 0x9C] = .ok (.sbcAbsY 0x9C34, []) ∧
    decode [0xFA] = .ok (.unlistedFA, []) ∧
    decode [0xFB, 0x34, 0x9C] = .ok (.iscAbsY 0x9C34, []) ∧
    decode [0xFC] = .ok (.unlistedFC, []) ∧
    decode [0xFD, 0x34, 0x9C] = .ok (.sbcAbsX 0x9C34, []) ∧
    decode [0xFE, 0x34, 0x9C] = .ok (.incAbsX 0x9C34, []) ∧
    decode [0xFF, 0x34, 0x9C] = .ok (.iscAbsX 0x9C34, []) := by
  refine ⟨rfl, rfl, rfl, rfl, rfl, rfl, rfl, rfl, rfl, rfl, rfl, rfl, rfl, rfl, rfl, rfl⟩

/-! ### Single steps

The test configuration of 95_test_vectors.md section 0: $2000-$FFFF plain memory, PC = $8000, SP = $FD, all flags 0. -/

/-- Flags from their bits in the order N V D I Z C. -/
def bits (b : BitVec 6) : Flags :=
  { n := b.getLsbD 5, v := b.getLsbD 4, d := b.getLsbD 3, i := b.getLsbD 2, z := b.getLsbD 1, c := b.getLsbD 0 }

/-- The flags as bits in the order N V D I Z C. -/
def flags (s : State) : Nat :=
  s.p.n.toNat * 32 + s.p.v.toNat * 16 + s.p.d.toNat * 8 + s.p.i.toNat * 4 + s.p.z.toNat * 2 + s.p.c.toNat

/-- Everything outside internal RAM is plain memory. -/
def plain : Platform := { admitUndocumented := true, dummyPolicy := .emit, busMap := [⟨0x2000, 0xFFFF, .memory⟩] }

/-- The start state of the vectors. -/
def base : State := { State.reset with pc := 0x8000, p := bits 0, cfg := plain }

/-- Some bytes of memory given from outside. -/
def fill (cells : List (Addr × Byte)) (s : State) : State :=
  { s with mem := cells.foldl (fun m c => m.write (cell c.1) c.2) s.mem }

/-- The start state with an instruction at PC and some bytes of memory. -/
def start (s : State) (code : List Byte) (cells : List (Addr × Byte)) : State :=
  fill (cells ++ (code.zipIdx.map fun c => (s.pc + BitVec.ofNat 16 c.2, c.1))) s

/-- What a next state shows. -/
def after {α : Type} (r : Result) (f : State → α) : Option α :=
  match r with
  | .next t => some (f t)
  | .fault _ | .refused _ => none

/-- Why a step stopped. -/
def stopped (r : Result) : Option Fault :=
  match r with
  | .fault f => some f
  | .next _ | .refused _ => none

/-- V-LS-05: `B5 F0`, LDA $F0,X. -/
theorem test_lda_zpx_wraps_in_page_zero :
    after (step (start { base with x := 0x20 } [0xB5, 0xF0] [(0x0010, 0xAA), (0x0110, 0x55)]))
      (fun t => (t.a, flags t, t.cycle)) = some (0xAA, 0b100000, 4) := by
  decide

/-- V-LS-13: `B1 86`, LDA ($86),Y. -/
theorem test_lda_indy_crosses_page :
    after (step (start { base with y := 0xE0 } [0xB1, 0x86] [(0x0086, 0x28), (0x0087, 0x04), (0x0508, 0x12)]))
      (fun t => (t.a, flags t, t.cycle)) = some (0x12, 0b000000, 6) := by
  decide

/-- V-LS-16: `B6 80`, LDX $80,Y. -/
theorem test_ldx_zpy_wraps :
    after (step (start { base with y := 0x90 } [0xB6, 0x80] [(0x0010, 0x01)]))
      (fun t => (t.x, flags t, t.cycle)) = some (0x01, 0b000000, 4) := by
  decide

/-- V-LS-19: `BC FF 02`, LDY $02FF,X. -/
theorem test_ldy_absx_crosses_page :
    after (step (start { base with x := 0x01 } [0xBC, 0xFF, 0x02] [(0x0300, 0x90)]))
      (fun t => (t.y, flags t, t.cycle)) = some (0x90, 0b100000, 5) := by
  decide

/-- V-LS-24: `91 30`, STA ($30),Y. -/
theorem test_sta_indy_fixed_cycles :
    after (step (start { base with a := 0x78, y := 0xFF } [0x91, 0x30] [(0x0030, 0x01), (0x0031, 0x03)]))
      (fun t => ([byteAt t 0x0400], flags t, t.cycle)) = some ([0x78], 0b000000, 6) := by
  decide

/-- V-LS-25: `8D 00 08`, STA $0800. -/
theorem test_sta_abs_reaches_mirror :
    after (step (start { base with a := 0x9A } [0x8D, 0x00, 0x08] []))
      (fun t => ([byteAt t 0x0000], flags t, t.cycle)) = some ([0x9A], 0b000000, 4) := by
  decide

/-- V-LS-26: `96 F0`, STX $F0,Y. -/
theorem test_stx_zpy_wraps :
    after (step (start { base with x := 0xBC, y := 0x20 } [0x96, 0xF0] []))
      (fun t => ([byteAt t 0x0010], flags t, t.cycle)) = some ([0xBC], 0b000000, 4) := by
  decide

/-- V-LS-27: `94 10`, STY $10,X. -/
theorem test_sty_zpx :
    after (step (start { base with y := 0xDE, x := 0x01 } [0x94, 0x10] []))
      (fun t => ([byteAt t 0x0011], flags t, t.cycle)) = some ([0xDE], 0b000000, 4) := by
  decide

/-- V-TS-01: `AA`, TAX. -/
theorem test_tax_negative :
    after (step (start { base with a := 0x80 } [0xAA] []))
      (fun t => (t.x, flags t, t.cycle)) = some (0x80, 0b100000, 2) := by
  decide

/-- V-TS-02: `A8`, TAY. -/
theorem test_tay_zero :
    after (step (start { base with a := 0x00, y := 0x55 } [0xA8] []))
      (fun t => (t.y, flags t, t.cycle)) = some (0x00, 0b000010, 2) := by
  decide

/-- V-TS-03: `BA`, TSX. -/
theorem test_tsx_copies_sp :
    after (step (start { base with sp := 0xFD } [0xBA] []))
      (fun t => (t.x, flags t, t.cycle)) = some (0xFD, 0b100000, 2) := by
  decide

/-- V-TS-04: `8A`, TXA. -/
theorem test_txa_clears_negative :
    after (step (start { base with x := 0x01, a := 0xFF, p := bits 0b100000 } [0x8A] []))
      (fun t => (t.a, flags t, t.cycle)) = some (0x01, 0b000000, 2) := by
  decide

/-- V-TS-05: `9A`, TXS. -/
theorem test_txs_writes_no_flag :
    after (step (start { base with x := 0x00, sp := 0xFD, p := bits 0b100000 } [0x9A] []))
      (fun t => (t.sp, flags t, t.cycle)) = some (0x00, 0b100000, 2) := by
  decide

/-- V-TS-06: `98`, TYA. -/
theorem test_tya_negative :
    after (step (start { base with y := 0x90 } [0x98] []))
      (fun t => (t.a, flags t, t.cycle)) = some (0x90, 0b100000, 2) := by
  decide

/-- V-TS-08: `48`, PHA. -/
theorem test_pha_wraps :
    after (step (start { base with a := 0x42, sp := 0x00 } [0x48] []))
      (fun t => ([byteAt t 0x0100], flags t, t.cycle)) = some ([0x42], 0b000000, 3) := by
  decide

/-- V-TS-09: `08`, PHP. -/
theorem test_php_sets_bits_five_and_four :
    after (step (start { base with p := bits 0b100101 } [0x08] []))
      (fun t => ([byteAt t 0x01FD], flags t, t.cycle)) = some ([0xB5], 0b100101, 3) := by
  decide

/-- V-TS-12: `68`, PLA. -/
theorem test_pla_wraps :
    after (step (start { base with sp := 0xFF } [0x68] [(0x0100, 0x80)]))
      (fun t => (t.a, flags t, t.cycle)) = some (0x80, 0b100000, 4) := by
  decide

/-- V-TS-13: `28`, PLP. -/
theorem test_plp_sets_six_flags :
    after (step (start { base with sp := 0xFC } [0x28] [(0x01FD, 0xFF)]))
      (fun t => (t.sp, flags t, t.cycle)) = some (0xFD, 0b111111, 4) := by
  decide

/-- V-AR-04: `69 90`, ADC #$90. -/
theorem test_adc_carry_and_overflow :
    after (step (start { base with a := 0xD0 } [0x69, 0x90] []))
      (fun t => (t.a, flags t, t.cycle)) = some (0x60, 0b010001, 2) := by
  decide

/-- V-AR-08: `69 01`, ADC #$01. -/
theorem test_adc_ignores_decimal_flag :
    after (step (start { base with a := 0x99, p := bits 0b001000 } [0x69, 0x01] []))
      (fun t => (t.a, flags t, t.cycle)) = some (0x9A, 0b101000, 2) := by
  decide

/-- V-AR-13: `E9 B0`, SBC #$B0. -/
theorem test_sbc_overflow :
    after (step (start { base with a := 0x50, p := bits 0b000001 } [0xE9, 0xB0] []))
      (fun t => (t.a, flags t, t.cycle)) = some (0xA0, 0b110000, 2) := by
  decide

/-- V-AR-18: `F1 40`, SBC ($40),Y. -/
theorem test_sbc_indy_with_borrow :
    after (step (start { base with a := 0x10, y := 0x01 } [0xF1, 0x40] [(0x0040, 0xFF), (0x0041, 0x02), (0x0300, 0x08)]))
      (fun t => (t.a, flags t, t.cycle)) = some (0x07, 0b000001, 6) := by
  decide

/-- V-ID-01: `E6 10`, INC $10. -/
theorem test_inc_wraps_and_keeps_carry :
    after (step (start { base with p := bits 0b000001 } [0xE6, 0x10] [(0x0010, 0xFF)]))
      (fun t => ([byteAt t 0x0010], flags t, t.cycle)) = some ([0x00], 0b000011, 5) := by
  decide

/-- V-ID-03: `FE 00 03`, INC $0300,X. -/
theorem test_inc_absx_fixed_cycles :
    after (step (start { base with x := 0x01 } [0xFE, 0x00, 0x03] [(0x0301, 0x00)]))
      (fun t => ([byteAt t 0x0301], flags t, t.cycle)) = some ([0x01], 0b000000, 7) := by
  decide

/-- V-ID-06: `D6 FF`, DEC $FF,X. -/
theorem test_dec_zpx_wraps :
    after (step (start { base with x := 0x02 } [0xD6, 0xFF] [(0x0001, 0x80)]))
      (fun t => ([byteAt t 0x0001], flags t, t.cycle)) = some ([0x7F], 0b000000, 6) := by
  decide

/-- V-ID-07: `E8`, INX. -/
theorem test_inx_wraps :
    after (step (start { base with x := 0xFF } [0xE8] []))
      (fun t => (t.x, flags t, t.cycle)) = some (0x00, 0b000010, 2) := by
  decide

/-- V-ID-09: `C8`, INY. -/
theorem test_iny :
    after (step (start { base with y := 0x00 } [0xC8] []))
      (fun t => (t.y, flags t, t.cycle)) = some (0x01, 0b000000, 2) := by
  decide

/-- V-ID-11: `CA`, DEX. -/
theorem test_dex_to_zero :
    after (step (start { base with x := 0x01 } [0xCA] []))
      (fun t => (t.x, flags t, t.cycle)) = some (0x00, 0b000010, 2) := by
  decide

/-- V-ID-12: `88`, DEY. -/
theorem test_dey_clears_bit_seven :
    after (step (start { base with y := 0x80 } [0x88] []))
      (fun t => (t.y, flags t, t.cycle)) = some (0x7F, 0b000000, 2) := by
  decide

/-- V-LG-03: `35 10`, AND $10,X. -/
theorem test_and_zpx :
    after (step (start { base with a := 0xF0, x := 0x01 } [0x35, 0x10] [(0x0011, 0x90)]))
      (fun t => (t.a, flags t, t.cycle)) = some (0x90, 0b100000, 4) := by
  decide

/-- V-LG-06: `19 00 02`, ORA $0200,Y. -/
theorem test_ora_absy :
    after (step (start { base with a := 0x0F, y := 0x01 } [0x19, 0x00, 0x02] [(0x0201, 0x30)]))
      (fun t => (t.a, flags t, t.cycle)) = some (0x3F, 0b000000, 4) := by
  decide

/-- V-LG-09: `41 10`, EOR ($10,X). -/
theorem test_eor_indx :
    after (step (start { base with a := 0xFF, x := 0x00 } [0x41, 0x10] [(0x0010, 0x00), (0x0011, 0x02), (0x0200, 0x7F)]))
      (fun t => (t.a, flags t, t.cycle)) = some (0x80, 0b100000, 6) := by
  decide

/-- V-SH-01: `0A`, ASL A. -/
theorem test_asl_a_shifts_out_bit_seven :
    after (step (start { base with a := 0x81 } [0x0A] []))
      (fun t => (t.a, flags t, t.cycle)) = some (0x02, 0b000001, 2) := by
  decide

/-- V-SH-03: `06 10`, ASL $10. -/
theorem test_asl_zp :
    after (step (start base [0x06, 0x10] [(0x0010, 0x40)]))
      (fun t => ([byteAt t 0x0010], flags t, t.cycle)) = some ([0x80], 0b100000, 5) := by
  decide

/-- V-SH-05: `4E 00 03`, LSR $0300. -/
theorem test_lsr_abs_clears_negative :
    after (step (start { base with p := bits 0b100000 } [0x4E, 0x00, 0x03] [(0x0300, 0xFF)]))
      (fun t => ([byteAt t 0x0300], flags t, t.cycle)) = some ([0x7F], 0b000001, 6) := by
  decide

/-- V-SH-06: `2A`, ROL A. -/
theorem test_rol_a_shifts_in_carry :
    after (step (start { base with a := 0x40, p := bits 0b000001 } [0x2A] []))
      (fun t => (t.a, flags t, t.cycle)) = some (0x81, 0b100000, 2) := by
  decide

/-- V-SH-11: `7E 00 03`, ROR $0300,X. -/
theorem test_ror_absx_shifts_in_carry :
    after (step (start { base with x := 0xFF, p := bits 0b000001 } [0x7E, 0x00, 0x03] [(0x03FF, 0x02)]))
      (fun t => ([byteAt t 0x03FF], flags t, t.cycle)) = some ([0x81], 0b100000, 7) := by
  decide

/-- V-CB-05: `C9 FF`, CMP #$FF. -/
theorem test_cmp_keeps_overflow_ignores_carry :
    after (step (start { base with a := 0x00, p := bits 0b010001 } [0xC9, 0xFF] []))
      (fun t => (t.a, flags t, t.cycle)) = some (0x00, 0b010000, 2) := by
  decide

/-- V-CB-06: `D1 20`, CMP ($20),Y. -/
theorem test_cmp_indy_equal :
    after (step (start { base with a := 0x10, y := 0x02 } [0xD1, 0x20] [(0x0020, 0xFF), (0x0021, 0x02), (0x0301, 0x10)]))
      (fun t => (t.a, flags t, t.cycle)) = some (0x10, 0b000011, 6) := by
  decide

/-- V-CB-08: `E4 10`, CPX $10. -/
theorem test_cpx_less :
    after (step (start { base with x := 0x00 } [0xE4, 0x10] [(0x0010, 0x01)]))
      (fun t => (t.x, flags t, t.cycle)) = some (0x00, 0b100000, 3) := by
  decide

/-- V-CB-10: `CC 00 03`, CPY $0300. -/
theorem test_cpy_unsigned :
    after (step (start { base with y := 0x7F } [0xCC, 0x00, 0x03] [(0x0300, 0x80)]))
      (fun t => (t.y, flags t, t.cycle)) = some (0x7F, 0b100000, 4) := by
  decide

/-- V-CB-13: `2C 00 03`, BIT $0300. -/
theorem test_bit_sets_negative_and_zero :
    after (step (start { base with a := 0x00 } [0x2C, 0x00, 0x03] [(0x0300, 0x80)]))
      (fun t => (t.a, flags t, t.cycle)) = some (0x00, 0b100010, 4) := by
  decide

/-- V-CB-14: `2C 00 03`, BIT $0300. -/
theorem test_bit_keeps_carry :
    after (step (start { base with a := 0x01, p := bits 0b110011 } [0x2C, 0x00, 0x03] [(0x0300, 0x01)]))
      (fun t => (t.a, flags t, t.cycle)) = some (0x01, 0b000001, 4) := by
  decide

/-- V-BR-02: `10 05`, BPL $8007. -/
theorem test_bpl_not_taken :
    after (step (start { base with p := bits 0b100000 } [0x10, 0x05] []))
      (fun t => (t.pc, flags t, t.cycle)) = some (0x8002, 0b100000, 2) := by
  decide

/-- V-BR-03: `30 FE`, BMI $9000. -/
theorem test_bmi_to_itself :
    after (step (start { base with pc := 0x9000, p := bits 0b100000 } [0x30, 0xFE] []))
      (fun t => (t.pc, flags t, t.cycle)) = some (0x9000, 0b100000, 3) := by
  decide

/-- V-BR-04: `50 10`, BVC $8102. -/
theorem test_bvc_crosses_page :
    after (step (start { base with pc := 0x80F0 } [0x50, 0x10] []))
      (fun t => (t.pc, flags t, t.cycle)) = some (0x8102, 0b000000, 4) := by
  decide

/-- V-BR-05: `70 02`, BVS $8004. -/
theorem test_bvs_taken :
    after (step (start { base with p := bits 0b010000 } [0x70, 0x02] []))
      (fun t => (t.pc, flags t, t.cycle)) = some (0x8004, 0b010000, 3) := by
  decide

/-- V-BR-07: `90 7F`, BCC $8081. -/
theorem test_bcc_largest_forward :
    after (step (start base [0x90, 0x7F] []))
      (fun t => (t.pc, flags t, t.cycle)) = some (0x8081, 0b000000, 3) := by
  decide

/-- V-BR-08: `B0 80`, BCS $7F82. -/
theorem test_bcs_largest_backward :
    after (step (start { base with p := bits 0b000001 } [0xB0, 0x80] []))
      (fun t => (t.pc, flags t, t.cycle)) = some (0x7F82, 0b000001, 4) := by
  decide

/-- V-BR-12: `D0 20`, BNE $0012. -/
theorem test_bne_wraps :
    after (step (start { base with pc := 0xFFF0 } [0xD0, 0x20] []))
      (fun t => (t.pc, flags t, t.cycle)) = some (0x0012, 0b000000, 4) := by
  decide

/-- V-BR-10: `F0 03`, BEQ $C005. -/
theorem test_beq_taken :
    after (step (start { base with pc := 0xC000, p := bits 0b000010 } [0xF0, 0x03] []))
      (fun t => (t.pc, flags t, t.cycle)) = some (0xC005, 0b000010, 3) := by
  decide

/-- V-JP-01: `4C 34 12`, JMP $1234. -/
theorem test_jmp_abs :
    after (step (start base [0x4C, 0x34, 0x12] []))
      (fun t => (t.pc, flags t, t.cycle)) = some (0x1234, 0b000000, 3) := by
  decide

/-- V-JP-03: `6C FF 02`, JMP ($02FF). -/
theorem test_jmp_ind_page_bug :
    after (step (start base [0x6C, 0xFF, 0x02] [(0x02FF, 0x00), (0x0200, 0x90), (0x0300, 0xA0)]))
      (fun t => (t.pc, flags t, t.cycle)) = some (0x9000, 0b000000, 5) := by
  decide

/-- V-JP-05: `20 00 90`, JSR $9000. -/
theorem test_jsr_pushes_last_byte_address :
    after (step (start { base with pc := 0x80FE, sp := 0x00 } [0x20, 0x00, 0x90] []))
      (fun t => ([byteAt t 0x0100, byteAt t 0x01FF], flags t, t.cycle)) = some ([0x81, 0x00], 0b000000, 6) := by
  decide

/-- V-JP-07: `60`, RTS. -/
theorem test_rts_wraps :
    after (step (start { base with pc := 0x9000, sp := 0xFB } [0x60] [(0x01FC, 0xFF), (0x01FD, 0xFF)]))
      (fun t => (t.pc, flags t, t.cycle)) = some (0x0000, 0b000000, 6) := by
  decide

/-- V-JP-08: `40`, RTI. -/
theorem test_rti_restores_flags :
    after (step (start { base with pc := 0x9000, sp := 0xFA, p := bits 0b000100 } [0x40] [(0x01FB, 0xA1), (0x01FC, 0x34), (0x01FD, 0x12)]))
      (fun t => (t.pc, flags t, t.cycle)) = some (0x1234, 0b100001, 6) := by
  decide

/-- V-FL-01: `18`, CLC. -/
theorem test_clc :
    after (step (start { base with p := bits 0b111111 } [0x18] []))
      (fun t => (t.pc, flags t, t.cycle)) = some (0x8001, 0b111110, 2) := by
  decide

/-- V-FL-02: `38`, SEC. -/
theorem test_sec :
    after (step (start base [0x38] []))
      (fun t => (t.pc, flags t, t.cycle)) = some (0x8001, 0b000001, 2) := by
  decide

/-- V-FL-03: `58`, CLI. -/
theorem test_cli :
    after (step (start { base with p := bits 0b111111 } [0x58] []))
      (fun t => (t.pc, flags t, t.cycle)) = some (0x8001, 0b111011, 2) := by
  decide

/-- V-FL-04: `78`, SEI. -/
theorem test_sei :
    after (step (start base [0x78] []))
      (fun t => (t.pc, flags t, t.cycle)) = some (0x8001, 0b000100, 2) := by
  decide

/-- V-FL-05: `B8`, CLV. -/
theorem test_clv :
    after (step (start { base with p := bits 0b111111 } [0xB8] []))
      (fun t => (t.pc, flags t, t.cycle)) = some (0x8001, 0b101111, 2) := by
  decide

/-- V-FL-06: `D8`, CLD. -/
theorem test_cld :
    after (step (start { base with p := bits 0b111111 } [0xD8] []))
      (fun t => (t.pc, flags t, t.cycle)) = some (0x8001, 0b110111, 2) := by
  decide

/-- V-FL-07: `F8`, SED. -/
theorem test_sed :
    after (step (start base [0xF8] []))
      (fun t => (t.pc, flags t, t.cycle)) = some (0x8001, 0b001000, 2) := by
  decide

/-- V-FL-08: `EA`, NOP. -/
theorem test_nop_keeps_flags :
    after (step (start { base with p := bits 0b101010 } [0xEA] []))
      (fun t => (t.pc, flags t, t.cycle)) = some (0x8001, 0b101010, 2) := by
  decide

/-- V-FL-09: `00`, BRK. -/
theorem test_brk_pushes_status_with_b :
    after (step (start { base with sp := 0xFD, p := bits 0b101001 } [0x00] [(0xFFFE, 0x00), (0xFFFF, 0xC0)]))
      (fun t => ([byteAt t 0x01FD, byteAt t 0x01FC, byteAt t 0x01FB], flags t, t.cycle)) = some ([0x80, 0x02, 0xB9], 0b101101, 7) := by
  decide

/-- V-UD-02: `2B 0F`, ANC #$0F. -/
theorem test_anc_second_byte :
    after (step (start { base with a := 0x8F, p := bits 0b000001 } [0x2B, 0x0F] []))
      (fun t => (t.a, flags t, t.cycle)) = some (0x0F, 0b000000, 2) := by
  decide

/-- V-UD-03: `4B 0F`, ALR #$0F. -/
theorem test_alr :
    after (step (start { base with a := 0xF5 } [0x4B, 0x0F] []))
      (fun t => (t.a, flags t, t.cycle)) = some (0x02, 0b000001, 2) := by
  decide

/-- V-UD-07: `6B 7F`, ARR #$7F. -/
theorem test_arr_flags_from_bits_six_and_five :
    after (step (start { base with a := 0xFF, p := bits 0b000001 } [0x6B, 0x7F] []))
      (fun t => (t.a, flags t, t.cycle)) = some (0xBF, 0b110000, 2) := by
  decide

/-- V-UD-10: `CB 10`, AXS #$10. -/
theorem test_axs_borrow :
    after (step (start { base with a := 0xFF, x := 0x0F } [0xCB, 0x10] []))
      (fun t => (t.x, flags t, t.cycle)) = some (0xFF, 0b100000, 2) := by
  decide

/-- V-UD-14: `83 20`, SAX ($20,X). -/
theorem test_sax_indx :
    after (step (start { base with a := 0xAA, x := 0x0F } [0x83, 0x20] [(0x002F, 0x00), (0x0030, 0x03)]))
      (fun t => ([byteAt t 0x0300], flags t, t.cycle)) = some ([0x0A], 0b000000, 6) := by
  decide

/-- V-UD-20: `B3 40`, LAX ($40),Y. -/
theorem test_lax_indy_zero :
    after (step (start { base with y := 0x10, a := 0x01 } [0xB3, 0x40] [(0x0040, 0xF8), (0x0041, 0x02), (0x0308, 0x00)]))
      (fun t => (t.x, flags t, t.cycle)) = some (0x00, 0b000010, 6) := by
  decide

/-- V-UD-24: `C3 10`, DCP ($10,X). -/
theorem test_dcp_indx :
    after (step (start { base with a := 0x10, x := 0x00 } [0xC3, 0x10] [(0x0010, 0x00), (0x0011, 0x03), (0x0300, 0x21)]))
      (fun t => ([byteAt t 0x0300], flags t, t.cycle)) = some ([0x20], 0b100000, 8) := by
  decide

/-- V-UD-27: `F3 10`, ISC ($10),Y. -/
theorem test_isc_overflow :
    after (step (start { base with a := 0x80, y := 0x01 } [0xF3, 0x10] [(0x0010, 0xFF), (0x0011, 0x02), (0x0300, 0x00)]))
      (fun t => (t.a, flags t, t.cycle)) = some (0x7E, 0b010001, 8) := by
  decide

/-- V-UD-29: `3F 00 03`, RLA $0300,X. -/
theorem test_rla_absx :
    after (step (start { base with a := 0x0F, x := 0x01 } [0x3F, 0x00, 0x03] [(0x0301, 0x55)]))
      (fun t => (t.a, flags t, t.cycle)) = some (0x0A, 0b000000, 7) := by
  decide

/-- V-UD-31: `67 10`, RRA $10. -/
theorem test_rra_carry_into_sum :
    after (step (start { base with a := 0x7F } [0x67, 0x10] [(0x0010, 0x03)]))
      (fun t => (t.a, flags t, t.cycle)) = some (0x81, 0b110000, 5) := by
  decide

/-- V-UD-33: `1B 00 03`, SLO $0300,Y. -/
theorem test_slo_absy_zero :
    after (step (start { base with a := 0x00, y := 0x00 } [0x1B, 0x00, 0x03] [(0x0300, 0x80)]))
      (fun t => ([byteAt t 0x0300], flags t, t.cycle)) = some ([0x00], 0b000011, 7) := by
  decide

/-- V-UD-34: `47 10`, SRE $10. -/
theorem test_sre_zp :
    after (step (start { base with a := 0xFF } [0x47, 0x10] [(0x0010, 0x03)]))
      (fun t => (t.a, flags t, t.cycle)) = some (0xFE, 0b100001, 5) := by
  decide

/-! ### Events, faults and the bus (95_test_vectors.md 2.12, 2.13) -/

/-- V-EV-01: the reset sequence; nothing is said of the unspecified registers. -/
theorem test_reset_sequence :
    after (step (start { base with inputs := [⟨true, false, true⟩], p := bits 0b001000 } []
        [(0xFFFC, 0x00), (0xFFFD, 0xC0)]))
      (fun t => (t.pc, t.p.i, t.p.d, t.takeInt)) = some (0xC000, true, false, .none) := by
  decide

/-- V-EV-02: the IRQ sequence. -/
theorem test_irq_sequence :
    after (step (start { base with takeInt := .irq, pc := 0x1234, p := bits 0b110011 } [] [(0xFFFE, 0x00), (0xFFFF, 0x90)]))
      (fun t => ([byteAt t 0x01FD, byteAt t 0x01FC, byteAt t 0x01FB], t.pc, flags t, t.cycle)) =
        some ([0x12, 0x34, 0xE3], 0x9000, 0b110111, 7) := by
  decide

/-- V-EV-03: the NMI sequence; the pushes wrap in page $01. -/
theorem test_nmi_sequence :
    after (step (start { base with takeInt := .nmi, nmiPending := true, pc := 0x80FF, sp := 0x01, p := bits 0b001100 } []
        [(0xFFFA, 0x00), (0xFFFB, 0xA0)]))
      (fun t => ([byteAt t 0x0101, byteAt t 0x0100, byteAt t 0x01FF], t.pc, t.nmiPending)) =
        some ([0x80, 0xFF, 0x2C], 0xA000, false) := by
  decide

/-- V-EV-05: NMI wins the poll over IRQ. -/
theorem test_poll_prefers_nmi :
    after (step (start { base with inputs := [⟨false, true, true⟩] } [0xEA] [])) (fun t => t.takeInt) = some .nmi := by
  decide

/-- V-EV-06: CLI is polled with the old I. -/
theorem test_cli_polled_with_old_i :
    after (step (start { base with p := bits 0b000100, inputs := [⟨false, false, true⟩] } [0x58, 0xEA] []))
      (fun t => (t.p.i, t.takeInt)) = some (false, .none) := by
  decide

/-- V-EV-07: SEI is polled with the old I. -/
theorem test_sei_polled_with_old_i :
    after (step (start { base with inputs := [⟨false, false, true⟩] } [0x78, 0xEA] []))
      (fun t => (t.p.i, t.takeInt)) = some (true, .irq) := by
  decide

/-- V-EV-08: RTI is polled with the new I. -/
theorem test_rti_polled_with_new_i :
    after (step (start { base with pc := 0x9000, sp := 0xFA, p := bits 0b000100, inputs := [⟨false, false, true⟩] } [0x40]
        [(0x01FB, 0x20), (0x01FC, 0x00), (0x01FD, 0x80)]))
      (fun t => (t.pc, t.takeInt)) = some (0x8000, .irq) := by
  decide

/-- V-EV-09: the store to $4014 takes 4 cycles, then the stall 513, its write falling on the odd cycle 3. -/
theorem test_oam_dma_stall :
    after (step (start { base with a := 0x02 } [0x8D, 0x14, 0x40] [])) (fun t => (t.pc, t.cycle)) = some (0x8003, 517) := by
  decide

/-- V-EV-10: an unlisted byte. -/
theorem test_unlisted_faults : stopped (step (start base [0x02] [])) = some (.unlistedOpcode 0x02 0x8000) := by
  decide

/-- V-EV-11: an undocumented byte that is not admitted. -/
theorem test_undocumented_not_admitted :
    stopped (step (start { base with cfg := { plain with admitUndocumented := false } } [0xA7, 0x10] [])) =
      some (.undocumentedNotAdmitted 0xA7 0x8000) := by
  decide

/-- V-EV-13: an instruction that straddles the top of the address space. -/
theorem test_fetch_wraps :
    after (step (start { base with pc := 0xFFFF } [0xAD, 0x34, 0x02] [(0x0234, 0x77)])) (fun t => (t.a, t.pc)) =
      some (0x77, 0x0002) := by
  decide

/-- 48_branch_jump.md R176, corner case (a): the pushed byte is the second operand byte, where it lands on it; and
70_reset_and_hazards.md R275: a device that supplies that byte is read once, and JSR takes 6 cycles. -/
theorem test_jsr_reads_high_byte_after_pushes :
    after (step (start { base with pc := 0x01FB, sp := 0xFD } [0x20, 0x00, 0x90] [])) (fun t => t.pc) = some 0x0100 ∧
    after (step (start { base with cfg := { plain with busMap := ⟨0x8002, 0x8002, .device true⟩ :: plain.busMap } }
      [0x20, 0x00] [])) (fun t => (t.busLog, t.cycle)) = some ([.read 0x8002], 6) := by
  decide

/-- D12, D13: BRK's read of the byte after it is a dummy access, and is refused where that byte has side effects. -/
theorem test_brk_refused_on_device :
    stopped (step { base with cfg := { plain with
      dummyPolicy := .refuseOnDevice, busMap := ⟨0x8001, 0x8001, .device true⟩ :: plain.busMap } }) =
      some (.deviceDummyAccess 0x8001) := by
  decide

/-- Log 26: an NMI edge in the sample of the step that takes the NMI sequence is dropped with the latch. -/
theorem test_nmi_edge_in_nmi_sequence :
    after (step { base with takeInt := .nmi, nmiPending := true, inputs := [⟨false, true, false⟩] })
      (fun t => (t.nmiPending, t.takeInt)) = some (false, .none) := by
  decide

/-- V-BUS-01: the dummy read of an indexed store reaches PPU register 0, and so does the write. -/
theorem test_indexed_store_bus :
    after (step (start { base with cfg := Config.resetPlatform, a := 0x55, x := 0x18 } [0x9D, 0xF0, 0x20] []))
      (fun t => (t.busLog, t.cycle)) = some ([.write 0x2000 0x55, .read 0x2000], 5) := by
  decide

/-- V-BUS-04: of the dummy read in RAM and the read of PPU register 2, the device sees the second. -/
theorem test_crossing_load_bus :
    after (step (start { base with cfg := Config.resetPlatform, x := 0x03 } [0xBD, 0xFF, 0x1F] []))
      (fun t => (t.busLog, t.cycle)) = some ([.read 0x2002], 5) := by
  decide

/-- 70_reset_and_hazards.md R275: under `refuseOnDevice` the dummy write of INC on a device is refused. -/
theorem test_refused_dummy_write :
    stopped (exec (.incAbs 0x2007) { base with cfg := { Config.resetPlatform with dummyPolicy := .refuseOnDevice } }) =
      some (.deviceDummyAccess 0x2007) := by
  decide

/-- An instruction placed where the machine fetches runs as the first one after reset. -/
theorem test_withFetchWord_runs_first :
    after (step (State.reset.withFetchWord 16 0x7FA9)) (fun t => (t.a, t.pc)) = some (0x7F, 0x0002) := by
  decide

/-- PC after reset is what the reset vector holds, and memory is in canonical form. -/
theorem test_reset_pc : State.reset.pc = (read16 resetVector State.reset).1 ∧ Memory.wf State.reset.mem = true := by
  decide

/-! ### Witnesses

For every statement with hypotheses, a concrete state and operands that meet them, clause by clause, at the ends of the ranges
where a clause has a range. -/

/-- The platform of reset, with devices. -/
def devices : State := { base with cfg := Config.resetPlatform }

/-- Devices without side effects, dummy accesses not issued. -/
def harmless : State :=
  { base with cfg := { plain with dummyPolicy := .refuseOnDevice, busMap := [⟨0x2000, 0xFFFF, .device false⟩] } }

/-- Devices with side effects, dummy accesses not issued. -/
def guarded : State := { base with cfg := { Config.resetPlatform with dummyPolicy := .refuseOnDevice } }

/-- Undocumented bytes not admitted. -/
def strict : State := { base with cfg := { plain with admitUndocumented := false } }

theorem cell_bounds (a : Addr) (h : ¬a.toNat < 0x2000) : 0x2000 ≤ cell a ∧ cell a ≤ 0xFFFF := by
  have h1 : cell a < 0x10000 := (physical a).isLt
  refine ⟨?_, by omega⟩
  unfold cell physical
  rw [if_neg h]
  split
  · have h7 : (a &&& 0x0007).toNat ≤ 7 := by
      rw [BitVec.toNat_and]; exact Nat.and_le_right
    rw [BitVec.toNat_add]
    show 0x2000 ≤ (0x2000 + (a &&& 0x0007).toNat) % 2 ^ 16
    omega
  · omega

/-- Where the map is one record over $2000-$FFFF, its kind is that of every address there. -/
theorem kindAt_whole (s : State) (k : RegionKind) (h : s.cfg.busMap = [⟨0x2000, 0xFFFF, k⟩]) (a : Addr) :
    kindAt s a = if a.toNat < 0x2000 then .memory else k := by
  unfold kindAt
  split
  · rfl
  · rename_i hr
    rw [h]
    unfold regionKind
    rw [if_pos (cell_bounds a hr)]

theorem plain_noDevice (s : State) (h : s.cfg.busMap = [⟨0x2000, 0xFFFF, .memory⟩]) (a : Addr) : isDevice s a = false := by
  unfold isDevice
  rw [kindAt_whole s .memory h a]
  by_cases hr : a.toNat < 0x2000 <;> simp [hr]

/-- Where dummy accesses are emitted none of them stops an instruction. -/
theorem noDummyStops_of_emit {i : Instr} {s : State} (h : s.cfg.dummyPolicy = .emit) : NoDummyStops i s := fun _ _ => .inl h

/-- Addresses without side effects are harmless. -/
theorem harmless_of_all {s : State} {as : List Addr} (h : (as.all fun a => !hasSideEffects s a) = true) :
    ∀ a ∈ as, Harmless s a := fun a ha => .inr (by simpa using List.all_eq_true.1 h a ha)

/-- The hypothesis `NoDummyStops` also holds under the refusing policy on the platform of reset, whose devices have side effects:
for an instruction without dummy accesses, one with the byte after it, and a crossing index outside the devices. -/
theorem witness_NoDummyStops : NoDummyStops (.ldaImm 0x05) guarded ∧ NoDummyStops .clc guarded ∧
    NoDummyStops (.ldaAbsX 0x80FF) { guarded with x := 0x01 } ∧ NoDummyStops (.incAbs 0x0300) guarded ∧
    NoDummyStops (.staAbsX 0x2000) harmless :=
  ⟨harmless_of_all (by decide), harmless_of_all (by decide), harmless_of_all (by decide), harmless_of_all (by decide),
    harmless_of_all (by decide)⟩

/-- Where no dummy access is refused: the byte after PC, emitted, and in memory beside devices. -/
theorem witness_Harmless : Harmless base (base.pc + 1) ∧ Harmless guarded (guarded.pc + 1) ∧ Harmless guarded guarded.pc :=
  ⟨.inl rfl, .inr (by decide), .inr (by decide)⟩

theorem witness_EncodeUndoesDecode : decode [0xA9, 0x7F, 0x60] = .ok (.ldaImm 0x7F, [0x60]) := rfl

theorem witness_EveryOpcodeByteDecodes : decode [0xFE, 0xFF, 0x00] = .ok (.incAbsX 0x00FF, []) := rfl

/-- Both clauses at the ends of $0000-$1FFF: the same cell through two mirrors, and two cells. -/
theorem witness_RamIsMirrored : (0x07FF : Addr).toNat < 0x2000 ∧ (0x1FFF : Addr).toNat < 0x2000 ∧
    (0x0000 : Addr).toNat < 0x2000 ∧ (0x07FF : Addr) &&& 0x07FF = 0x1FFF &&& 0x07FF ∧
    (0x0000 : Addr) &&& 0x07FF ≠ 0x1FFF &&& 0x07FF ∧ Memory.wf base.mem = true := by
  decide

theorem witness_PpuRegistersAreMirrored : 0x2000 ≤ (0x2000 : Addr).toNat ∧ (0x3FFF : Addr).toNat < 0x4000 ∧
    isDevice devices 0x2000 = true ∧ isDevice devices 0x3FFF = true := by
  decide

/-- A write that is stored in a canonical memory, and one that is not stored. -/
theorem witness_WriteChangesOneCell : Memory.wf base.mem = true ∧ isWritable base 0xFFFF = true ∧
    isWritable devices 0x2000 = false ∧ cell 0x0001 ≠ cell 0x0000 := by
  decide

theorem witness_PointerReads : isDevice base 0xFFFF = false ∧ isDevice base (0xFFFF + 1) = false ∧
    isDevice devices 0x2006 = true ∧ isDevice devices (0x2006 + 1) = true ∧ lo 0x02FE ≠ 0xFF ∧ lo 0x02FF = 0xFF ∧
    isDevice base 0x02FF = false ∧ isDevice base (0x02FF - 0xFF) = false := by
  decide

theorem witness_PushStoresAndDecrements : Memory.wf base.mem = true ∧
    isWritable base (stackAddr base.sp) = true ∧ cell 0x0000 ≠ cell (stackAddr base.sp) := by
  decide

theorem witness_PullUndoesPush : Memory.wf ({ base with sp := 0x00 } : State).mem = true := by decide

/-- Each clause names an instruction that runs: a store, a flag instruction, a load, a shift's neighbour. -/
theorem witness_OnlyListedInstructionsWriteFlags :
    (∃ t, exec (.staZp 0x10) base = .next t) ∧ (Instr.staZp 0x10).mnemonic = .sta ∧
    (∃ t, exec .clc base = .next t) ∧ Instr.clc.mnemonic = .clc ∧
    (∃ t, exec (.ldaImm 0x80) base = .next t) ∧
    (Instr.ldaImm 0x80).mnemonic ∉ [.adc, .sbc, .bit, .clv, .plp, .rti, .arr, .isc, .rra] ∧
    (Instr.ldaImm 0x80).mnemonic ∉ [.cld, .sed, .plp, .rti] ∧
    (Instr.ldaImm 0x80).mnemonic ∉ [.cli, .sei, .plp, .rti, .brk] ∧
    (Instr.ldaImm 0x80).mnemonic ∉ [.adc, .sbc, .asl, .lsr, .rol, .ror, .cmp, .cpx, .cpy, .clc, .sec, .plp, .rti, .anc,
      .alr, .arr, .axs, .dcp, .isc, .rla, .rra, .slo, .sre] :=
  ⟨⟨_, rfl⟩, rfl, ⟨_, rfl⟩, rfl, ⟨_, rfl⟩, by decide, by decide, by decide, by decide⟩

theorem witness_DecimalFlagHasNoEffect : (Instr.adcImm 0x09).mnemonic ≠ .php ∧ (Instr.adcImm 0x09).mnemonic ≠ .brk ∧
    ∃ t, exec (.adcImm 0x09) base = .next t := ⟨by decide, by decide, _, rfl⟩

/-- The immediate clause and the memory clause. -/
theorem witness_OperandBytes : (∀ a ∈ operandDummies false (.indY 0xFF) base, Harmless base a) ∧
    MemOperand.imm 0xFF = .imm 0xFF ∧ (∀ b, MemOperand.indY 0xFF ≠ .imm b) ∧
    isDevice base (effective (.indY 0xFF) base) = false :=
  ⟨fun _ _ => .inl rfl, rfl, fun _ => nofun, by decide⟩

theorem witness_EffectiveAddresses : ∀ a ∈ operandDummies true (.absX 0x80FF) guarded, Harmless guarded a :=
  harmless_of_all (by decide)

/-- The page is crossed at 256 and not at 255. -/
theorem witness_IndexArithmetic : pageCrossed 0x12F0 0x10 = true ∧ pageCrossed 0x12F0 0x0F = false := by decide

theorem witness_LoadResults : NoDummyStops (.ldaAbsX 0xFFFF) base ∧ (Instr.ldaAbsX 0xFFFF).mnemonic = .lda ∧
    (Instr.ldxZpY 0xFF).mnemonic = .ldx ∧ (Instr.ldyImm 0x00).mnemonic = .ldy := ⟨noDummyStops_of_emit rfl, rfl, rfl, rfl⟩

theorem witness_StoreResults : NoDummyStops (.staIndY 0xFF) base ∧ (Instr.staIndY 0xFF).mnemonic = .sta ∧
    (Instr.stxAbs 0x4014).mnemonic = .stx ∧ (Instr.styZp 0x00).mnemonic = .sty ∧
    effective (.abs 0x4013) base ≠ 0x4014 ∧ Memory.wf base.mem = true ∧ isWritable base 0x0000 = true :=
  ⟨noDummyStops_of_emit rfl, rfl, rfl, rfl, by decide, by decide, by decide⟩

theorem witness_TransferResults : Harmless guarded (guarded.pc + 1) := witness_Harmless.2.1

theorem witness_PushInstructionResults : Harmless base (base.pc + 1) ∧
    (Instr.pha = .pha ∧ (0x00 : Byte) = base.a) ∧ (Instr.php = .php ∧ (0x30 : Byte) = statusByte true base.p) :=
  ⟨.inl rfl, ⟨rfl, by decide⟩, rfl, by decide⟩

theorem witness_PullInstructionResults : Harmless ({ base with sp := 0xFF } : State) (base.pc + 1) := .inl rfl

theorem witness_AdcResult : (Instr.adcImm 0x05).mnemonic = .adc ∧ NoDummyStops (.adcImm 0x05) guarded :=
  ⟨rfl, fun _ ha => nomatch ha⟩

theorem witness_SbcResult : (Instr.sbcIndY 0x40).mnemonic = .sbc ∧ NoDummyStops (.sbcIndY 0x40) base :=
  ⟨rfl, noDummyStops_of_emit rfl⟩

theorem witness_IncDecMemoryResults : NoDummyStops (.incAbsX 0x02FF) base ∧ (Instr.incAbsX 0x02FF).mnemonic = .inc ∧
    (Instr.decZp 0xFF).mnemonic = .dec := ⟨noDummyStops_of_emit rfl, rfl, rfl⟩

theorem witness_IncDecRegisterResults : Harmless guarded (guarded.pc + 1) := witness_Harmless.2.1

theorem witness_LogicalResults : NoDummyStops (.eorIndX 0x10) base ∧ (Instr.andImm 0x00).mnemonic = .and ∧
    (Instr.oraZp 0xFF).mnemonic = .ora ∧ (Instr.eorIndX 0x10).mnemonic = .eor := ⟨noDummyStops_of_emit rfl, rfl, rfl, rfl⟩

theorem witness_ShiftAccumulatorResults : Harmless base (base.pc + 1) := .inl rfl

theorem witness_ShiftMemoryResults : NoDummyStops (.aslZp 0x10) base ∧ (Instr.aslZp 0x10).operand = .memory (.zp 0x10) ∧
    (Instr.aslZp 0x10).mnemonic = .asl ∧ (Instr.lsrZp 0x10).mnemonic = .lsr ∧ (Instr.rolZp 0x10).mnemonic = .rol ∧
    (Instr.rorZp 0x10).mnemonic = .ror := ⟨noDummyStops_of_emit rfl, rfl, rfl, rfl, rfl, rfl⟩

theorem witness_CompareResults : NoDummyStops (.cpxAbs 0x0000) base ∧ ((Instr.cmpImm 0x00).mnemonic = .cmp ∧ base.a = base.a) ∧
    ((Instr.cpxAbs 0x0000).mnemonic = .cpx ∧ base.x = base.x) ∧ ((Instr.cpyZp 0xFF).mnemonic = .cpy ∧ base.y = base.y) :=
  ⟨noDummyStops_of_emit rfl, ⟨rfl, rfl⟩, ⟨rfl, rfl⟩, rfl, rfl⟩

theorem witness_BitTestResult : (Instr.bitAbs 0x2002).mnemonic = .bit ∧ NoDummyStops (.bitAbs 0x2002) devices :=
  ⟨rfl, noDummyStops_of_emit rfl⟩

/-- A branch taken and one not taken, at the two ends of the offset. -/
theorem witness_BranchResults : NoDummyStops (.bpl 0x7F) base ∧ (Instr.bpl 0x7F = .bpl 0x7F ∧ true = !base.p.n) ∧
    (Instr.bmi 0x80 = .bmi 0x80 ∧ false = base.p.n) := ⟨noDummyStops_of_emit rfl, ⟨rfl, rfl⟩, rfl, rfl⟩

theorem witness_JumpResults : isDevice base 0x02FF = false ∧ isDevice base (join (hi 0x02FF) (lo 0x02FF + 1)) = false := by
  decide

/-- Plain memory but for a device at one address. -/
def deviceAt (a : Addr) (d : DummyPolicy) : State :=
  { base with cfg := { plain with dummyPolicy := d, busMap := ⟨a.toNat, a.toNat, .device true⟩ :: plain.busMap } }

/-- The state before `JSR $9000`, and one before a JSR whose first push lands on its last byte. -/
def beforeJsr : State := { base with mem := [(0x8000, 0x20), (0x8002, 0x90)] }
def jsrOnStack : State := { base with pc := 0x01FB }

/-- The clauses of JSR: its last byte in memory where no push lands, on the first push, and in a device. -/
theorem witness_JsrResult :
    (Memory.wf beforeJsr.mem = true ∧ isDevice beforeJsr (beforeJsr.pc + 2) = false ∧
      byteAt beforeJsr (beforeJsr.pc + 2) = hi 0x9000 ∧
      cell (beforeJsr.pc + 2) ≠ cell (stackAddr beforeJsr.sp) ∧
      cell (beforeJsr.pc + 2) ≠ cell (stackAddr (beforeJsr.sp - 1)) ∧
      cell 0x0000 ≠ cell (stackAddr beforeJsr.sp) ∧ cell 0x0000 ≠ cell (stackAddr (beforeJsr.sp - 1))) ∧
    (isDevice jsrOnStack (jsrOnStack.pc + 2) = false ∧
      cell (jsrOnStack.pc + 2) = cell (stackAddr jsrOnStack.sp)) ∧
    isDevice (deviceAt 0x8002 .emit) ((deviceAt 0x8002 .emit).pc + 2) = true := by
  decide

theorem witness_RtsResult : NoDummyStops .rts ({ base with sp := 0xFF } : State) := noDummyStops_of_emit rfl

theorem witness_RtsUndoesJsr : Memory.wf base.mem = true ∧ ∃ t, exec (.jsr 0x9000) base = .next t ∧ NoDummyStops .rts t :=
  ⟨by decide, _, rfl, noDummyStops_of_emit rfl⟩

theorem witness_RtiResult : Harmless ({ base with sp := 0xFD } : State) (base.pc + 1) := .inl rfl

theorem witness_RtiUndoesEntry :
    NoDummyStops .rti (enterHandler 0x1234 false irqVector { base with sp := 0x01 }) ∧
    Memory.wf ({ base with sp := 0x01 } : State).mem = true := ⟨noDummyStops_of_emit rfl, by decide⟩

theorem witness_FlagInstructionResults : Harmless guarded (guarded.pc + 1) := witness_Harmless.2.1

/-- Both clauses of BRK, and the inner hypotheses of `Entered`. -/
theorem witness_BrkResult :
    Harmless base (base.pc + 1) ∧ Harmless guarded (guarded.pc + 1) ∧
    ((deviceAt 0x8001 .refuseOnDevice).cfg.dummyPolicy = .refuseOnDevice ∧
      hasSideEffects (deviceAt 0x8001 .refuseOnDevice) ((deviceAt 0x8001 .refuseOnDevice).pc + 1) = true) ∧
    Memory.wf base.mem = true ∧ isDevice base 0xFFFE = false ∧ isDevice base 0xFFFF = false ∧
    (cell 0x01FA ≠ cell (stackAddr base.sp) ∧ cell 0x01FA ≠ cell (stackAddr (base.sp - 1)) ∧
      cell 0x01FA ≠ cell (stackAddr (base.sp - 2))) :=
  ⟨witness_Harmless.1, witness_Harmless.2.1, by decide⟩

/-- A polled NMI, a polled IRQ, and one whose read at PC is refused. -/
theorem witness_InterruptSequenceResult :
    (sampleLines { base with takeInt := .nmi, nmiPending := true }).lines.reset = false ∧ Harmless base base.pc ∧
    (sampleLines { guarded with takeInt := .irq }).lines.reset = false ∧ Harmless guarded guarded.pc ∧
    stopped (step { guarded with pc := 0x2000, takeInt := .irq }) = some (.deviceDummyAccess 0x2000) :=
  ⟨rfl, .inl rfl, rfl, .inr (by decide), by decide⟩

theorem witness_ResetSequenceResult :
    (sampleLines { base with inputs := [⟨true, false, false⟩] }).lines.reset = true ∧ Harmless base base.pc ∧
    isDevice base 0xFFFC = false ∧ isDevice base 0xFFFD = false ∧
    stopped (step { guarded with pc := 0x2000, lines := ⟨true, false, false⟩ }) = some (.deviceDummyAccess 0x2000) :=
  ⟨rfl, .inl rfl, by decide, by decide, by decide⟩

theorem witness_UndocumentedImmediateResults : base.cfg.admitUndocumented = true ∧
    Instr.ancImm0B 0xFF = .ancImm0B 0xFF ∧ Instr.ancImm2B 0xFF = .ancImm2B 0xFF := ⟨rfl, rfl, rfl⟩

theorem witness_SaxLaxResults : NoDummyStops (.laxIndX 0x20) base ∧ base.cfg.admitUndocumented = true ∧
    (Instr.saxZpY 0xFF).mnemonic = .sax ∧ (Instr.laxIndX 0x20).mnemonic = .lax :=
  ⟨noDummyStops_of_emit rfl, rfl, rfl, rfl⟩

theorem witness_UndocumentedModifyResults : NoDummyStops (.iscIndY 0x10) base ∧ base.cfg.admitUndocumented = true ∧
    (Instr.dcpZp 0x10).mnemonic = .dcp ∧ (Instr.iscIndY 0x10).mnemonic = .isc ∧ (Instr.rlaAbsX 0x0300).mnemonic = .rla ∧
    (Instr.rraZp 0x10).mnemonic = .rra ∧ (Instr.sloAbsY 0x0300).mnemonic = .slo ∧ (Instr.sreZpX 0x10).mnemonic = .sre :=
  ⟨noDummyStops_of_emit rfl, rfl, rfl, rfl, rfl, rfl, rfl, rfl⟩

theorem witness_UndocumentedNotAdmittedFaults : (Instr.laxZp 0x10).status = .undocumented ∧
    strict.cfg.admitUndocumented = false := ⟨rfl, rfl⟩

/-- The first and the last unlisted byte. -/
theorem witness_UnlistedOpcodesFault : decode [0x02] = .ok (.unlisted02, []) ∧ decode [0xFC] = .ok (.unlistedFC, []) :=
  ⟨rfl, rfl⟩

/-- The state before `LDA #$05`. -/
def beforeLda : State := { base with mem := [(0x8000, 0xA9), (0x8001, 0x05)] }

theorem witness_StepRunsDecodedInstruction : AboutToRun (.ldaImm 0x05) beforeLda :=
  ⟨rfl, rfl, ⟨[0x00], rfl⟩, fun _ _ => plain_noDevice beforeLda rfl _⟩

theorem witness_PollAfterInstruction : AboutToRun (.ldaImm 0x05) beforeLda ∧
    ∃ t, exec (.ldaImm 0x05) (fetched (.ldaImm 0x05) beforeLda) = .next t := ⟨witness_StepRunsDecodedInstruction, _, rfl⟩

/-- The cases of the poll: BRK, and CLI with I = 1. -/
theorem witness_PollAfterInstruction_brk_cli :
    AboutToRun .brk base ∧ (∃ t, exec .brk (fetched .brk base) = .next t) ∧
    AboutToRun .cli { base with mem := [(0x8000, 0x58)], p := bits 0b000100 } ∧
    (∃ t, exec .cli (fetched .cli { base with mem := [(0x8000, 0x58)], p := bits 0b000100 }) = .next t) :=
  ⟨⟨rfl, rfl, ⟨_, rfl⟩, fun _ _ => plain_noDevice base rfl _⟩, ⟨_, rfl⟩,
    ⟨rfl, rfl, ⟨_, rfl⟩, fun _ _ => plain_noDevice _ rfl _⟩, ⟨_, rfl⟩⟩

/-- An NMI edge arrives. -/
theorem witness_NmiEdgeIsLatched :
    let s := { beforeLda with inputs := [⟨false, true, false⟩] }
    s.inputs = ⟨false, true, false⟩ :: [] ∧ (⟨false, true, false⟩ : Lines).reset = false ∧ s.takeInt = .none ∧
      (after (step s) (fun t => t.nmiPending) = some true) := by
  decide

theorem witness_StepKeepsInvariant : Machine.Inv beforeLda ∧ (after (step beforeLda) (fun t => t.a) = some 0x05) := by
  refine ⟨⟨by decide, ?_, rfl, nofun⟩, by decide⟩
  intro c hc
  simp only [beforeLda, List.mem_cons, List.not_mem_nil, or_false] at hc
  rcases hc with rfl | rfl <;> decide

/-- Each of the three ways to stop. -/
theorem witness_OnlyTheseStops :
    stopped (step { base with mem := [(0x8000, 0x02)] }) = some (.unlistedOpcode 0x02 0x8000) ∧
    stopped (step { strict with mem := [(0x8000, 0xA7)] }) = some (.undocumentedNotAdmitted 0xA7 0x8000) ∧
    stopped (step { guarded with x := 0x01, mem := [(0x8000, 0x9D), (0x8002, 0x20)] }) = some (.deviceDummyAccess 0x2001) := by
  decide

/-- Both clauses of CycleCounts, under the refusing policy beside devices with side effects: an official and an undocumented
instruction that complete; a read-modify-write, a branch and an RTS whose last dummy access is refused. -/
theorem witness_CycleCounts :
    Executable (.ldaAbsX 0x80FF) guarded ∧ NoDummyStops (.ldaAbsX 0x80FF) { guarded with x := 0x01 } ∧
    operandCrosses (.absX 0x80FF) { guarded with x := 0x01 } = true ∧ Executable (.laxIndY 0x40) base ∧
    NoDummyStops (.laxIndY 0x40) base ∧ guarded.cfg.dummyPolicy = .refuseOnDevice ∧
    (dummyAddresses (.incAbs 0x2005) guarded).find? (hasSideEffects guarded) = some 0x2005 ∧
    (dummyAddresses (.bpl 0x70) { guarded with pc := 0x40A0 }).find? (hasSideEffects guarded) = some 0x4012 ∧
    (dummyAddresses (.rts) { guarded with mem := [(0x01FE, 0x02), (0x01FF, 0x20)] }).find? (hasSideEffects guarded) =
      some 0x2002 :=
  ⟨⟨by decide, fun _ => rfl⟩, witness_NoDummyStops.2.2.1, by decide, ⟨by decide, fun _ => rfl⟩, noDummyStops_of_emit rfl, rfl,
    by decide, by decide, by decide⟩

/-- No device, and both an instruction with a dummy write and a fault to compare. -/
theorem witness_DummyPoliciesAgree : Memory.wf beforeLda.mem = true ∧ (∀ a, isDevice beforeLda a = false) ∧
    (after (step (withPolicy .emit { beforeLda with mem := [(0x8000, 0xE6), (0x8001, 0x10)] })) (fun t => byteAt t 0x10) = some 0x01) :=
  ⟨by decide, fun a => plain_noDevice beforeLda rfl a, by decide⟩

/-- The states before `STA $4014` and before `INC $4014`. -/
def beforeStaDma : State := { base with mem := [(0x8000, 0x8D), (0x8001, 0x14), (0x8002, 0x40)] }
def beforeIncDma : State := { base with mem := [(0x8000, 0xEE), (0x8001, 0x14), (0x8002, 0x40)] }

/-- A store and a read-modify-write at $4014; the last cycle is odd, and even. -/
theorem witness_OamDmaStall :
    AboutToRun (.staAbs 0x4014) beforeStaDma ∧ Executable (.staAbs 0x4014) beforeStaDma ∧
    NoDummyStops (.staAbs 0x4014) (fetched (.staAbs 0x4014) beforeStaDma) ∧
    effective (.abs 0x4014) (fetched (.staAbs 0x4014) beforeStaDma) = 0x4014 ∧
    (beforeStaDma.cycle + cyclesOf (.staAbs 0x4014) (fetched (.staAbs 0x4014) beforeStaDma) - 1) % 2 = 1 ∧
    AboutToRun (.incAbs 0x4014) { beforeIncDma with cycle := 1 } ∧ Executable (.incAbs 0x4014) beforeIncDma ∧
    NoDummyStops (.incAbs 0x4014) (fetched (.incAbs 0x4014) { beforeIncDma with cycle := 1 }) ∧
    (1 + cyclesOf (.incAbs 0x4014) (fetched (.incAbs 0x4014) { beforeIncDma with cycle := 1 }) - 1) % 2 ≠ 1 :=
  ⟨⟨rfl, rfl, ⟨_, rfl⟩, fun _ _ => plain_noDevice _ rfl _⟩, ⟨by decide, nofun⟩, noDummyStops_of_emit rfl, by decide, by decide,
    ⟨rfl, rfl, ⟨_, rfl⟩, fun _ _ => plain_noDevice _ rfl _⟩, ⟨by decide, nofun⟩, noDummyStops_of_emit rfl, by decide⟩

/-- The five clauses: emitted on devices, refused where there are side effects, left out where there are none. -/
theorem witness_DeviceAccesses :
    (devices.cfg.dummyPolicy = .emit ∧ isDevice devices (uncorrected 0x2000 devices.x) = true ∧
      isDevice devices (0x2000 + zext devices.x) = true) ∧
    (guarded.cfg.dummyPolicy = .refuseOnDevice ∧ hasSideEffects guarded (uncorrected 0x3FFF guarded.x) = true) ∧
    isDevice devices 0x401F = true ∧
    (harmless.cfg.dummyPolicy = .refuseOnDevice ∧ isDevice harmless 0x2000 = true ∧ hasSideEffects harmless 0x2000 = false) ∧
    hasSideEffects guarded 0x401F = true := by
  decide


end Sys2Proof.Tests.Slice0
end

/-!
PROOFS. The statements about one step as a whole (00_scope.md R8, R9): which instruction it runs, and where it stops.
-/

namespace Sys2Proof.Machine

/-! ### The sampled state -/

@[simp] theorem sampleLines_pc (s : State) : (sampleLines s).pc = s.pc := by unfold sampleLines; split <;> rfl
@[simp] theorem sampleLines_mem (s : State) : (sampleLines s).mem = s.mem := by unfold sampleLines; split <;> rfl
@[simp] theorem sampleLines_takeInt (s : State) : (sampleLines s).takeInt = s.takeInt := by
  unfold sampleLines; split <;> rfl
@[simp] theorem sampleLines_cycle (s : State) : (sampleLines s).cycle = s.cycle := by unfold sampleLines; split <;> rfl
@[simp] theorem sampleLines_cfg (s : State) : (sampleLines s).cfg = s.cfg := by unfold sampleLines; split <;> rfl

@[simp] theorem byteAt_sampleLines (s : State) (a : Addr) : byteAt (sampleLines s) a = byteAt s a := by simp [byteAt]

@[simp] theorem isDevice_sampleLines (s : State) (a : Addr) : isDevice (sampleLines s) a = isDevice s a := by
  simp [isDevice, kindAt]

/-! ### The opcode matrix -/

/-- What an entry of the opcode matrix must be at the byte `op`: whatever the operand bytes, the instruction has that opcode
byte and the length of its format (30_encoding.md R70, R75). -/
inductive EntryFits (op : Byte) : Entry → Prop where
  | one {i : Instr} (hop : i.opcode = op) (hlen : i.length = 1) : EntryFits op (.one i)
  | two {mk : Byte → Instr} (hop : ∀ b, (mk b).opcode = op) (hlen : ∀ b, (mk b).length = 2) : EntryFits op (.two mk)
  | three {mk : Addr → Instr} (hop : ∀ a, (mk a).opcode = op) (hlen : ∀ a, (mk a).length = 3) : EntryFits op (.three mk)

/-- Every entry of the matrix stands at its own opcode byte, in its own format. -/
theorem entryFits_ofNat (n : Nat) (h : n < 256) : EntryFits (BitVec.ofNat 8 n) (entryOf (BitVec.ofNat 8 n)) := by
  interval_cases n
  all_goals constructor
  all_goals intros
  all_goals rfl

theorem entryFits_entryOf (op : Byte) : EntryFits op (entryOf op) := by
  simpa only [BitVec.ofNat_toNat, BitVec.setWidth_eq] using entryFits_ofNat op.toNat op.isLt

theorem instr_length_pos (i : Instr) : 0 < i.length := by
  unfold Instr.length
  cases i.operand with
  | memory m => cases m <;> exact Nat.succ_pos _
  | _ => exact Nat.succ_pos _

/-- Every row of JSR is three bytes long. -/
theorem length_of_jsr {i : Instr} (h : i.mnemonic = .jsr) : i.length = 3 := by
  cases i <;> first | rfl | cases h

/-- Of an instruction shorter than JSR the fetch reads every byte. -/
theorem fetchLength_of_short {i : Instr} (h : i.length < 3) : fetchLength i = i.length :=
  if_neg fun hj => Nat.ne_of_lt h (length_of_jsr hj)

/-! ### The fetch -/

/-- A read from memory answers the same byte at any time. -/
theorem read_memory_at {a : Addr} {s : State} (h : isDevice s a = false) (n : Nat) :
    read a { s with cycle := n } = (byteAt s a, { s with cycle := n + 1 }) :=
  read_memory (s := { s with cycle := n }) h

/-- The instruction fetched has as its opcode the byte read at PC. -/
theorem fetch_opcode (s : State) : (fetch s).1.opcode = readValue s.pc s := by
  have hfits := entryFits_entryOf (readValue s.pc s)
  simp only [fetch, read_fst]
  generalize entryOf (readValue s.pc s) = e at hfits ⊢
  cases hfits with
  | one hop _ => exact hop
  | two hop _ => exact hop _
  | three hop _ => exact hop _

/-- Where the bytes at PC lie in memory and decode to `i`, the fetch gives `i`, one cycle for each byte it reads, and changes
nothing else. -/
theorem fetch_of_decode {s : State} {i : Instr} {rest : List Byte}
    (hd : decode [byteAt s s.pc, byteAt s (s.pc + 1), byteAt s (s.pc + 2)] = .ok (i, rest))
    (hm : ∀ k, k < i.length → isDevice s (s.pc + BitVec.ofNat 16 k) = false) :
    fetch s = (i, { s with cycle := s.cycle + fetchLength i }) := by
  have h0 : isDevice s s.pc = false := by simpa using hm 0 (instr_length_pos i)
  have hfits := entryFits_entryOf (byteAt s s.pc)
  simp only [decode] at hd
  simp only [fetch, read_memory h0]
  generalize entryOf (byteAt s s.pc) = e at hd hfits ⊢
  cases hfits with
  | one _ hlen =>
    cases hd
    rw [fetchLength_of_short (by omega), hlen]
  | two _ hlen =>
    cases hd
    have hlen := hlen (byteAt s (s.pc + 1))
    have h1 : isDevice s (s.pc + 1) = false := hm 1 (by omega)
    rw [fetchLength_of_short (by omega), hlen]
    simp only [read_memory_at h1]
  | three _ hlen =>
    cases hd
    have hlen := hlen (join (byteAt s (s.pc + 2)) (byteAt s (s.pc + 1)))
    have h1 : isDevice s (s.pc + 1) = false := hm 1 (by omega)
    have h2 : isDevice s (s.pc + 2) = false := hm 2 (by omega)
    simp only [read_memory_at h1, read_memory_at h2, fetchLength, hlen]
    split_ifs <;> rfl

/-! ### The faults of the sequences -/

/-- The fault of a refused dummy access depends on the platform alone. -/
theorem DummyFault.of_cfg {s t : State} {f : Fault} (h : DummyFault t f) (hcfg : t.cfg = s.cfg) : DummyFault s f := by
  obtain ⟨a, hf, hp, he⟩ := h
  refine ⟨a, hf, hcfg ▸ hp, ?_⟩
  rw [← he]; unfold hasSideEffects kindAt; rw [hcfg]

/-- A computation that faults, if at all, on a refused dummy access. -/
def OnlyDummyFaults (s : State) (r : Except Fault State) : Prop := ∀ f, r = .error f → DummyFault s f

theorem OnlyDummyFaults.ok (s t : State) : OnlyDummyFaults s (.ok t) := fun _ h => nomatch h

theorem OnlyDummyFaults.dummyRead_bind (a : Addr) (s : State) {k : State → Except Fault State}
    (hk : ∀ t, OnlyDummyFaults t (k t)) : OnlyDummyFaults s ((dummyRead a s).bind k) := by
  intro f h
  cases hr : dummyRead a s with
  | error g => rw [hr] at h; cases h; exact dummyRead_error hr
  | ok t => rw [hr] at h; exact (hk t f h).of_keeps (keeps_dummyRead hr)

theorem interruptSequence_faults (nmi : Bool) (s : State) : OnlyDummyFaults s (interruptSequence nmi s) :=
  .dummyRead_bind _ _ fun _ => .dummyRead_bind _ _ fun _ => .ok _ _

theorem resetSequence_faults (s : State) : OnlyDummyFaults s (resetSequence s) :=
  .dummyRead_bind _ _ fun _ => .dummyRead_bind _ _ fun _ => .dummyRead_bind _ _ fun _ => .dummyRead_bind _ _ fun _ =>
    .dummyRead_bind _ _ fun _ => .ok _ _

theorem finish_ne_refused (c : Except Fault State) (r : Refusal) : finish c ≠ .refused r := by
  cases c <;> exact nofun

theorem finish_eq_fault {c : Except Fault State} {f : Fault} (h : finish c = .fault f) : c = .error f := by
  cases c <;> cases h; rfl

/-! ### The stops of an instruction -/

theorem exec_ne_refused (i : Instr) (s : State) (q : Refusal) : exec i s ≠ .refused q := by
  rcases exec_good i s with ⟨c, hc, -⟩ | ⟨-, -, hx⟩ | ⟨-, hx⟩
  · exact hc ▸ finish_ne_refused c q
  · rw [hx]; exact nofun
  · rw [hx]; exact nofun

/-- The faults of an instruction (00_scope.md R9): its byte is unlisted, or undocumented and not admitted, or one of its dummy
accesses is refused. -/
theorem exec_fault_cases {i : Instr} {s : State} {f : Fault} (h : exec i s = .fault f) :
    (i.status = .unlisted ∧ f = .unlistedOpcode i.opcode s.pc) ∨
    (i.status = .undocumented ∧ s.cfg.admitUndocumented = false ∧ f = .undocumentedNotAdmitted i.opcode s.pc) ∨
    DummyFault s f := by
  rcases exec_good i s with ⟨c, hc, hgood⟩ | ⟨hi, ha, hx⟩ | ⟨hi, hx⟩
  · exact .inr (.inr (hgood.2 f (finish_eq_fault (hc ▸ h))))
  · cases hx.symm.trans h; exact .inr (.inl ⟨hi, ha, rfl⟩)
  · cases hx.symm.trans h; exact .inl ⟨hi, rfl⟩

/-! ### The step -/

/-- What a step makes of the outcome of its instruction: a next state is completed, a fault or a refusal is handed on. -/
def completeResult (m : Mnemonic) (before : State) : Result → Result
  | .next t => .next (completeInstr m before t)
  | .fault f => .fault f
  | .refused r => .refused r

theorem completeResult_eq_refused {m : Mnemonic} {u : State} {r : Result} {q : Refusal}
    (h : completeResult m u r = .refused q) : r = .refused q := by
  cases r <;> cases h; rfl

theorem completeResult_eq_fault {m : Mnemonic} {u : State} {r : Result} {f : Fault}
    (h : completeResult m u r = .fault f) : r = .fault f := by
  cases r <;> cases h; rfl

/-- Without reset and without a poll result, the step is that of the instruction fetched. -/
theorem step_of_no_event {s : State} (hr : (sampleLines s).lines.reset = false) (ht : s.takeInt = .none) :
    step s = completeResult (fetch (sampleLines s)).1.mnemonic (fetch (sampleLines s)).2
      (exec (fetch (sampleLines s)).1 (fetch (sampleLines s)).2) := by
  simp only [step, hr, sampleLines_takeInt, ht, Bool.false_eq_true, if_false]
  cases exec (fetch (sampleLines s)).1 (fetch (sampleLines s)).2 <;> rfl

/-- What a step can be: a sequence, which faults on a refused dummy access only, or the step of
the instruction fetched (`step_of_no_event`). -/
theorem step_cases (s : State) :
    (∃ c, step s = finish c ∧ OnlyDummyFaults (sampleLines s) c) ∨
    ((sampleLines s).lines.reset = false ∧ s.takeInt = .none) := by
  cases hr : (sampleLines s).lines.reset with
  | true => exact .inl ⟨_, by simp only [step, hr, if_true], resetSequence_faults _⟩
  | false =>
    cases ht : s.takeInt with
    | none => exact .inr ⟨rfl, rfl⟩
    | nmi => exact .inl ⟨_, by simp only [step, hr, sampleLines_takeInt, ht]; rfl, interruptSequence_faults true _⟩
    | irq => exact .inl ⟨_, by simp only [step, hr, sampleLines_takeInt, ht]; rfl, interruptSequence_faults false _⟩

/-- No step refuses: the sequences can only fault, and every instruction has a meaning. -/
theorem step_ne_refused (s : State) (q : Refusal) : step s ≠ .refused q := by
  intro h
  rcases step_cases s with ⟨c, hc, -⟩ | ⟨hr, ht⟩
  · exact finish_ne_refused c q (hc ▸ h)
  · rw [step_of_no_event hr ht] at h
    exact exec_ne_refused _ _ q (completeResult_eq_refused h)

/-- Settles O50: the fetch gives `i` in the state `fetched i s`. -/
theorem stepRunsDecodedInstruction : Obligations.StepRunsDecodedInstruction := by
  rintro i s ⟨hr, ht, ⟨rest, hd⟩, hm⟩
  have hfetch : fetch (sampleLines s) = (i, fetched i s) := by
    rw [fetch_of_decode (i := i) (rest := rest) (by simpa using hd) (by simpa using hm), sampleLines_cycle, fetched]
  rw [step_of_no_event hr ht, hfetch]
  cases exec i (fetched i s) <;> rfl

/-- Settles O56, by the cases of a step: a sequence can fault on a dummy access only, an instruction as `exec_fault_cases`
says. -/
theorem onlyTheseStops : Obligations.OnlyTheseStops := by
  intro s i
  refine ⟨by simpa using fetch_opcode (sampleLines s), step_ne_refused s, fun f h => ?_⟩
  rcases step_cases s with ⟨c, hc, honly⟩ | ⟨hr, ht⟩
  · exact .inr ((honly f (finish_eq_fault (hc ▸ h))).of_cfg (sampleLines_cfg s))
  · have hbus := fetch_sameButBus (sampleLines s)
    have hcfg : (fetch (sampleLines s)).2.cfg = s.cfg := hbus.cfg.trans (sampleLines_cfg s)
    have hpc : (fetch (sampleLines s)).2.pc = s.pc := hbus.pc.trans (sampleLines_pc s)
    rw [step_of_no_event hr ht] at h
    rcases exec_fault_cases (completeResult_eq_fault h) with ⟨hi, hf⟩ | ⟨hi, ha, hf⟩ | hdummy
    · exact .inl ⟨hr, ht, .inl ⟨hi, hpc ▸ hf⟩⟩
    · exact .inl ⟨hr, ht, .inr ⟨hi, hcfg ▸ ha, hpc ▸ hf⟩⟩
    · exact .inr (hdummy.of_cfg hcfg)

end Sys2Proof.Machine

/-!
PROOFS. The statements about the state itself (10_state.md): the stack, the status byte, which instruction writes which flag,
that D is inert, the values of reset and the invariant that every step keeps.
-/

namespace Sys2Proof.Machine

/-! ### The stack -/

/-- A push goes to page $01, so it triggers no OAM DMA stall. -/
@[simp] theorem push_dmaStall (v : Byte) (s : State) : (push v s).dmaStall = s.dmaStall := by rw [push_spec]

/-- Settles O10: the registers by `push_spec`, the cell by the laws of `write`. -/
theorem pushStoresAndDecrements : Obligations.PushStoresAndDecrements := by
  intro v s
  refine ⟨stackAddr_toNat s.sp, rfl, ?_, onlyCellChanges_write _ v s, holdsAt_write _ v s⟩
  rw [push_spec]

/-- Settles O11: after a push SP + 1 is the old SP, so the pull reads the cell just written. -/
theorem pullUndoesPush : Obligations.PullUndoesPush := by
  intro v s
  refine ⟨pull_spec s, fun hwf => ?_⟩
  have hsp : (push v s).sp + 1 = s.sp := BitVec.sub_add_cancel s.sp 1
  rw [pull_spec, hsp]
  exact ⟨holdsAt_write _ v s hwf (ram_isWritable (stackAddr_ram _)), rfl⟩

/-! ### The status byte -/

/-- `StatusByte` as a sum of its bits (10_state.md R27). -/
theorem statusByte_toNat (b : Bool) (p : Flags) : (statusByte b p).toNat =
    p.n.toNat * 128 + p.v.toNat * 64 + 32 + b.toNat * 16 + p.d.toNat * 8 + p.i.toNat * 4 + p.z.toNat * 2 + p.c.toNat := by
  obtain ⟨n, v, d, i, z, c⟩ := p
  revert b n v d i z c
  decide

/-- `SetStatus` reads the six flags back, whatever B is (10_state.md R28). -/
theorem flagsOfByte_statusByte (b : Bool) (p : Flags) : flagsOfByte (statusByte b p) = p := by
  obtain ⟨n, v, d, i, z, c⟩ := p
  revert b n v d i z c
  decide

/-- PHP after PLP: bits 5 and 4 of the byte come back as 1. -/
theorem statusByte_flagsOfByte (b : Byte) : statusByte true (flagsOfByte b) = b ||| 0x30 := by
  revert b
  decide

/-- Settles O12. -/
theorem statusByteAndSetStatus : Obligations.StatusByteAndSetStatus :=
  ⟨statusByte_toNat, fun _ _ => rfl, flagsOfByte_statusByte, statusByte_flagsOfByte⟩

/-- A byte with bit 7 set is not zero. -/
theorem not_negative_and_zero (v : Byte) : ¬(v.getLsbD 7 = true ∧ (v == 0) = true) := by
  rintro ⟨hn, hz⟩
  rw [eq_of_beq hz] at hn
  exact absurd hn (by decide)

/-- Settles O13: PLP can load N and Z together from $82; BIT finds both where A is 0 and the operand is $80. -/
theorem negativeAndZeroOfResult : Obligations.NegativeAndZeroOfResult :=
  ⟨fun _ _ => rfl, fun v _ => not_negative_and_zero v, ⟨0x82, State.reset, by decide⟩, ⟨0x80, State.reset, by decide⟩⟩

/-! ### Reset and the invariant -/

/-- Settles O54: a memory that lists nothing is in canonical form. -/
theorem resetMeetsInvariant : Obligations.ResetMeetsInvariant :=
  ⟨rfl, fun _ hc => absurd hc List.not_mem_nil, rfl, nofun⟩

/-- Settles O55: over a memory that lists nothing the reset vector reads as $0000. -/
theorem resetValues : Obligations.ResetValues := by
  have hmem : ∀ a, byteAt State.reset a = 0x00 := fun a => Memory.read_nil (cell a)
  refine ⟨rfl, rfl, rfl, rfl, rfl, ?_⟩
  rw [hmem, hmem]
  rfl

@[simp] theorem sampleLines_dmaStall (s : State) : (sampleLines s).dmaStall = s.dmaStall := by
  unfold sampleLines; split <;> rfl

/-- Sampling the inputs can only set the latch (60_exceptions.md R224). -/
theorem inv_sampleLines {s : State} (h : Inv s) : Inv (sampleLines s) := by
  obtain ⟨hwf, hkeys, hstall, hlatch⟩ := h
  refine ⟨by simpa using hwf, by simpa using hkeys, by simpa using hstall, fun ht => ?_⟩
  have hpending : s.nmiPending = true := hlatch (by simpa using ht)
  unfold sampleLines
  split <;> simp [hpending]

/-- Where no poll result stands, the invariant is about memory and the stall. -/
theorem inv_of_takeInt_none {t : State} (hwf : Memory.wf t.mem = true) (hkeys : keysAreCells t.mem) (hstall : t.dmaStall = 0)
    (ht : t.takeInt = .none) : Inv t :=
  ⟨hwf, hkeys, hstall, fun h => nomatch ht.symm.trans h⟩

/-- A sequence that goes on after a dummy read goes on from a state where only the bus changed. -/
theorem dummyRead_bind_eq_ok {β : Type} {a : Addr} {s : State} {r : β} {k : State → Except Fault β}
    (h : (dummyRead a s).bind k = .ok r) : ∃ u, SameButBus s u ∧ k u = .ok r := by
  cases hr : dummyRead a s with
  | error f => rw [hr] at h; cases h
  | ok u => rw [hr] at h; exact ⟨u, (dummyRead_inv hr).1, h⟩

/-- What the reset sequence leaves (60_exceptions.md R222). -/
theorem resetSequence_eq_ok {s t : State} (h : resetSequence s = .ok t) :
    t.mem = s.mem ∧ t.cfg = s.cfg ∧ t.dmaStall = 0 ∧ t.takeInt = .none := by
  obtain ⟨u1, h1, h⟩ := dummyRead_bind_eq_ok h
  obtain ⟨u2, h2, h⟩ := dummyRead_bind_eq_ok h
  obtain ⟨u3, h3, h⟩ := dummyRead_bind_eq_ok h
  obtain ⟨u4, h4, h⟩ := dummyRead_bind_eq_ok h
  obtain ⟨u5, h5, h⟩ := dummyRead_bind_eq_ok h
  have hbus : SameButBus s u5 := (((h1.trans h2).trans h3).trans h4).trans h5
  cases h
  exact ⟨hbus.mem, hbus.cfg, rfl, rfl⟩

/-- Entering a handler pushes to page $01 and reads the vector: no stall is triggered. -/
theorem enterHandler_dmaStall (ret : Addr) (b : Bool) (vector : Addr) (s : State) :
    (enterHandler ret b vector s).dmaStall = s.dmaStall := by
  have hpush : (push (statusByte b (pushAddr ret s).p) (pushAddr ret s)).dmaStall = s.dmaStall := by
    simp [pushAddr]
  exact hpush

/-- An interrupt sequence is the entry into a handler, the latch of an NMI cleared (60_exceptions.md R226). -/
theorem interruptSequence_eq_ok {nmi : Bool} {s t : State} (h : interruptSequence nmi s = .ok t) :
    ∃ vector u pending, SameButBus s u ∧ t = { enterHandler s.pc false vector u with nmiPending := pending } := by
  obtain ⟨u1, h1, h⟩ := dummyRead_bind_eq_ok h
  obtain ⟨u2, h2, h⟩ := dummyRead_bind_eq_ok h
  cases h
  exact ⟨_, u2, _, h1.trans h2, rfl⟩

theorem finish_eq_next {c : Except Fault State} {t : State} (h : finish c = .next t) : c = .ok t := by
  cases c <;> cases h; rfl

theorem completeResult_eq_next {m : Mnemonic} {u t : State} {r : Result} (h : completeResult m u r = .next t) :
    ∃ v, r = .next v ∧ t = completeInstr m u v := by
  cases r <;> cases h; exact ⟨_, rfl, rfl⟩

/-- An instruction that answers a next state keeps what no instruction changes. -/
theorem keeps_of_exec {i : Instr} {s t : State} (h : exec i s = .next t) : Keeps s t := by
  rcases exec_good i s with ⟨c, hc, hgood⟩ | ⟨-, -, hx⟩ | ⟨-, hx⟩
  · exact hgood.1 t (finish_eq_next (hc ▸ h))
  · cases hx.symm.trans h
  · cases hx.symm.trans h

/-- How a step answers a next state: through the reset sequence, an interrupt sequence, or the instruction fetched. -/
theorem step_next_cases {s t : State} (h : step s = .next t) :
    resetSequence (sampleLines s) = .ok t ∨
    (∃ nmi, interruptSequence nmi (sampleLines s) = .ok t) ∨
    (s.takeInt = .none ∧ ∃ u, exec (fetch (sampleLines s)).1 (fetch (sampleLines s)).2 = .next u ∧
      t = completeInstr (fetch (sampleLines s)).1.mnemonic (fetch (sampleLines s)).2 u) := by
  cases hr : (sampleLines s).lines.reset with
  | true => exact .inl (finish_eq_next (by simpa only [step, hr, if_true] using h))
  | false =>
    cases ht : s.takeInt with
    | none => exact .inr (.inr ⟨rfl, completeResult_eq_next (step_of_no_event hr ht ▸ h)⟩)
    | nmi =>
      simp only [step, hr, sampleLines_takeInt, ht, Bool.false_eq_true, if_false] at h
      exact .inr (.inl ⟨true, finish_eq_next h⟩)
    | irq =>
      simp only [step, hr, sampleLines_takeInt, ht, Bool.false_eq_true, if_false] at h
      exact .inr (.inl ⟨false, finish_eq_next h⟩)

/-- The reset sequence restores the invariant of any well-formed memory. -/
theorem inv_resetSequence {s t : State} (hs : Inv s) (h : resetSequence s = .ok t) : Inv t ∧ t.cfg = s.cfg := by
  obtain ⟨hwf, hkeys, -, -⟩ := hs
  obtain ⟨hmem, hcfg, hstall, htake⟩ := resetSequence_eq_ok h
  exact ⟨inv_of_takeInt_none (hmem ▸ hwf) (hmem ▸ hkeys) hstall htake, hcfg⟩

theorem inv_interruptSequence {nmi : Bool} {s t : State} (hs : Inv s) (h : interruptSequence nmi s = .ok t) :
    Inv t ∧ t.cfg = s.cfg := by
  obtain ⟨hwf, hkeys, hstall, -⟩ := hs
  obtain ⟨vector, u, pending, hbus, rfl⟩ := interruptSequence_eq_ok h
  have hkeeps : Keeps s (enterHandler s.pc false vector u) :=
    (keeps_sameButBus hbus).trans (keeps_enterHandler s.pc false vector u)
  have hstall' : (enterHandler s.pc false vector u).dmaStall = 0 := by
    rw [enterHandler_dmaStall, hbus.dmaStall, hstall]
  exact ⟨inv_of_takeInt_none (hkeeps.wf hwf) (hkeeps.keys hkeys) hstall' rfl, hkeeps.cfg⟩

/-- A poll finds an NMI only where the latch is set (60_exceptions.md R230). -/
theorem inv_poll {s : State} (b : Bool) (hwf : Memory.wf s.mem = true) (hkeys : keysAreCells s.mem) (hstall : s.dmaStall = 0) :
    Inv (poll b s) := by
  refine ⟨hwf, hkeys, hstall, fun h => ?_⟩
  rw [poll_takeInt] at h
  split_ifs at h with hpending
  exact hpending

/-- What completes an instruction serves the stall and polls; BRK, which is not polled, leaves no poll result. -/
theorem inv_completeInstr {m : Mnemonic} {s t : State} (hwf : Memory.wf t.mem = true) (hkeys : keysAreCells t.mem)
    (htake : t.takeInt = .none) : Inv (completeInstr m s t) := by
  unfold completeInstr pollAfter
  split_ifs
  · exact inv_of_takeInt_none hwf hkeys rfl htake
  · exact inv_poll _ hwf hkeys rfl
  · exact inv_poll _ hwf hkeys rfl

theorem completeInstr_cfg (m : Mnemonic) (s t : State) : (completeInstr m s t).cfg = t.cfg := by
  unfold completeInstr pollAfter
  split_ifs <;> rfl

/-- Settles O53, by the three ways a step answers a next state. -/
theorem stepKeepsInvariant : Obligations.StepKeepsInvariant := by
  intro s t hs h
  have hsample : Inv (sampleLines s) := inv_sampleLines hs
  rcases step_next_cases h with h | ⟨nmi, h⟩ | ⟨htake, u, hu, rfl⟩
  · simpa using inv_resetSequence hsample h
  · simpa using inv_interruptSequence hsample h
  · obtain ⟨hwf, hkeys, -, -⟩ := hsample
    have hkeeps : Keeps (sampleLines s) u := (keeps_sameButBus (fetch_sameButBus _)).trans (keeps_of_exec hu)
    have hnone : u.takeInt = .none := hkeeps.takeInt.elim (fun e => by simpa [htake] using e) id
    exact ⟨inv_completeInstr (hkeeps.wf hwf) (hkeeps.keys hkeys) hnone,
      by rw [completeInstr_cfg, hkeeps.cfg, sampleLines_cfg]⟩

/-! ### What a shape of instruction leaves when it completes -/

theorem indexed_sameButBus {always : Bool} {base : Addr} {idx : Byte} {s : State} {x : Addr × State}
    (h : indexed always base idx s = .ok x) : SameButBus s x.2 := by
  unfold indexed at h
  split at h
  · cases hr : dummyRead (uncorrected base idx) s with
    | error f => rw [hr] at h; cases h
    | ok u => rw [hr] at h; cases h; exact (dummyRead_inv hr).1
  · cases h; rfl

/-- An effective address that is reached changes nothing but what the bus saw (40_addressing_modes.md R105). -/
theorem address_sameButBus {always : Bool} {m : MemOperand} {s : State} {x : Addr × State}
    (h : address always m s = .ok x) : SameButBus s x.2 := by
  cases m with
  | imm b | zp b | abs a => cases h; rfl
  | zpX b | zpY b => obtain ⟨u, hu, h⟩ := dummyRead_bind_eq_ok h; cases h; exact hu
  | absX a | absY a => exact indexed_sameButBus h
  | indX b => obtain ⟨u, hu, h⟩ := dummyRead_bind_eq_ok h; cases h; exact hu.trans (readPair_sameButBus ..).1
  | indY b => exact (readPair_sameButBus ..).1.trans (indexed_sameButBus h)

theorem address_bind_eq_ok {β : Type} {always : Bool} {m : MemOperand} {s : State} {r : β}
    {k : Addr × State → Except Fault β} (h : (address always m s).bind k = .ok r) :
    ∃ ea u, SameButBus s u ∧ k (ea, u) = .ok r := by
  cases ha : address always m s with
  | error f => rw [ha] at h; cases h
  | ok x => rw [ha] at h; exact ⟨x.1, x.2, address_sameButBus ha, h⟩

/-- In every mode but immediate the operand byte is read at the effective address (40_addressing_modes.md R90, R91). -/
theorem readOperand_of_ne_imm {m : MemOperand} {s : State} (hm : ∀ b, m ≠ .imm b) :
    readOperand m s = (address false m s).bind fun ea => .ok (read ea.1 ea.2) := by
  cases m with
  | imm b => exact absurd rfl (hm b)
  | _ => rfl

theorem readOperand_sameButBus {m : MemOperand} {s : State} {x : Byte × State} (h : readOperand m s = .ok x) :
    SameButBus s x.2 := by
  by_cases hm : ∃ b, m = .imm b
  · obtain ⟨b, rfl⟩ := hm
    cases h
    rfl
  · rw [readOperand_of_ne_imm (not_exists.1 hm)] at h
    obtain ⟨ea, u, hu, h⟩ := address_bind_eq_ok h
    cases h
    exact hu.trans (sameButBus_afterRead ea u)

theorem readInstr_eq_next {m : MemOperand} {f : Byte → State → State} {s t : State} (h : readInstr m f s = .next t) :
    ∃ v u, SameButBus s u ∧ t = advance m.length (f v u) := by
  have h := finish_eq_next h
  cases hr : readOperand m s with
  | error e => rw [hr] at h; cases h
  | ok x => rw [hr] at h; cases h; exact ⟨x.1, x.2, readOperand_sameButBus hr, rfl⟩

theorem storeInstr_eq_next {m : MemOperand} {v : State → Byte} {s t : State} (h : storeInstr m v s = .next t) :
    ∃ ea u, SameButBus s u ∧ t = advance m.length (write ea (v u) u) := by
  obtain ⟨ea, u, hu, h⟩ := address_bind_eq_ok (finish_eq_next h)
  cases h
  exact ⟨ea, u, hu, rfl⟩

theorem dummyWrite_p {a : Addr} {v : Byte} {s t : State} (h : dummyWrite a v s = .ok t) : t.p = s.p := by
  unfold dummyWrite at h
  split at h
  · cases h; rfl
  · split at h <;> cases h; rfl

theorem modifyInstr_eq_next {m : MemOperand} {f : State → Byte → Byte} {g : Byte → Byte → State → State} {s t : State}
    (h : modifyInstr m f g s = .next t) : ∃ v r u, u.p = s.p ∧ t = advance m.length (g v r u) := by
  obtain ⟨ea, u, hu, h⟩ := address_bind_eq_ok (finish_eq_next h)
  cases hw : dummyWrite ea (readValue ea u) (afterRead ea u) with
  | error e => simp [hw, bind, Except.bind] at h
  | ok w =>
    simp only [hw, bind, Except.bind, read_fst, read_snd] at h
    cases h
    exact ⟨_, _, write ea _ w, (dummyWrite_p hw).trans hu.p, rfl⟩

theorem impliedInstr_eq_next {f : State → State} {s t : State} (h : impliedInstr f s = .next t) :
    ∃ u, SameButBus s u ∧ t = advance 1 (f u) := by
  obtain ⟨u, hu, h⟩ := dummyRead_bind_eq_ok (finish_eq_next h)
  cases h
  exact ⟨u, hu, rfl⟩

/-- An undocumented instruction that answers a next state is admitted. -/
theorem ifAdmitted_eq_next {op : Byte} {s t : State} {r : Result} (h : ifAdmitted op s r = .next t) : r = .next t := by
  unfold ifAdmitted at h
  split at h
  · exact h
  · cases h

/-! ### Which flags an instruction writes -/

/-- `q` is `p` but for the flags that `w` marks. -/
def WritesOnly (w p q : Flags) : Prop :=
  q = { n := bif w.n then q.n else p.n, v := bif w.v then q.v else p.v, d := bif w.d then q.d else p.d
        i := bif w.i then q.i else p.i, z := bif w.z then q.z else p.z, c := bif w.c then q.c else p.c }

/-- No flag marked. -/
def noFlags : Flags := { n := false, v := false, d := false, i := false, z := false, c := false }

/-- The flags each mnemonic may write, marked (10_state.md R29). -/
def writtenFlags : Mnemonic → Flags
  | .lda | .ldx | .ldy | .tax | .tay | .tsx | .txa | .tya | .pla | .inc | .inx | .iny | .dec | .dex | .dey
  | .and | .ora | .eor | .lax => { noFlags with n := true, z := true }
  | .bit => { noFlags with n := true, v := true, z := true }
  | .asl | .lsr | .rol | .ror | .cmp | .cpx | .cpy | .anc | .alr | .axs | .dcp | .rla | .slo | .sre =>
    { noFlags with n := true, z := true, c := true }
  | .adc | .sbc | .arr | .isc | .rra => { noFlags with n := true, v := true, z := true, c := true }
  | .clc | .sec => { noFlags with c := true }
  | .cli | .sei | .brk => { noFlags with i := true }
  | .clv => { noFlags with v := true }
  | .cld | .sed => { noFlags with d := true }
  | .plp | .rti => { n := true, v := true, d := true, i := true, z := true, c := true }
  | .sta | .stx | .sty | .txs | .pha | .php | .bpl | .bmi | .bvc | .bvs | .bcc | .bcs | .bne | .beq | .jmp | .jsr | .rts
  | .nop | .sax | .unlisted => noFlags

section
variable {w p q : Flags} (h : WritesOnly w p q)
include h

theorem WritesOnly.n (hw : w.n = false) : q.n = p.n := by rw [h, hw]; rfl
theorem WritesOnly.v (hw : w.v = false) : q.v = p.v := by rw [h, hw]; rfl
theorem WritesOnly.d (hw : w.d = false) : q.d = p.d := by rw [h, hw]; rfl
theorem WritesOnly.i (hw : w.i = false) : q.i = p.i := by rw [h, hw]; rfl
theorem WritesOnly.z (hw : w.z = false) : q.z = p.z := by rw [h, hw]; rfl
theorem WritesOnly.c (hw : w.c = false) : q.c = p.c := by rw [h, hw]; rfl
theorem WritesOnly.eq_of_noFlags (hw : w = noFlags) : q = p := by rw [h, hw]; rfl

end

theorem writesOnly_of_eq {w p q : Flags} (h : q = p) : WritesOnly w p q := by
  subst h
  simp [WritesOnly]

section
variable {w : Flags} {m : MemOperand} {s t : State}

theorem readInstr_writesOnly {f : Byte → State → State} (h : readInstr m f s = .next t)
    (hf : ∀ v u, WritesOnly w u.p (f v u).p) : WritesOnly w s.p t.p := by
  obtain ⟨v, u, hu, rfl⟩ := readInstr_eq_next h
  exact hu.p ▸ hf v u

theorem storeInstr_writesOnly {v : State → Byte} (h : storeInstr m v s = .next t) : WritesOnly w s.p t.p := by
  obtain ⟨ea, u, hu, rfl⟩ := storeInstr_eq_next h
  exact writesOnly_of_eq hu.p

theorem modifyInstr_writesOnly {f : State → Byte → Byte} {g : Byte → Byte → State → State}
    (h : modifyInstr m f g s = .next t) (hg : ∀ v r u, WritesOnly w u.p (g v r u).p) : WritesOnly w s.p t.p := by
  obtain ⟨v, r, u, hu, rfl⟩ := modifyInstr_eq_next h
  exact hu ▸ hg v r u

theorem impliedInstr_writesOnly {f : State → State} (h : impliedInstr f s = .next t)
    (hf : ∀ u, WritesOnly w u.p (f u).p) : WritesOnly w s.p t.p := by
  obtain ⟨u, hu, rfl⟩ := impliedInstr_eq_next h
  exact hu.p ▸ hf u

theorem branch_writesOnly {cond : Bool} {offset : Byte} (h : branch cond offset s = .next t) : WritesOnly w s.p t.p := by
  cases cond with
  | false => cases h; exact writesOnly_of_eq rfl
  | true =>
    obtain ⟨u, hu, h⟩ := dummyRead_bind_eq_ok (finish_eq_next h)
    split at h
    · obtain ⟨u', hu', h⟩ := dummyRead_bind_eq_ok h
      cases h
      exact writesOnly_of_eq (hu.trans hu').p
    · cases h
      exact writesOnly_of_eq hu.p

/-- The two discarded reads of an instruction that pulls leave the flags to `f`. -/
theorem pullInstr_eq_ok {f : State → State} (h : pullInstr f s = .ok t) : ∃ u, SameButBus s u ∧ t = f u := by
  obtain ⟨u1, h1, h⟩ := dummyRead_bind_eq_ok h
  obtain ⟨u2, h2, h⟩ := dummyRead_bind_eq_ok h
  cases h
  exact ⟨u2, h1.trans h2, rfl⟩

theorem opPla_writesOnly (h : opPla s = .next t) : WritesOnly (writtenFlags .pla) s.p t.p := by
  have h := finish_eq_next h
  cases hr : pullInstr (fun s => loadA (pull s).1 (pull s).2) s with
  | error f => rw [hr] at h; cases h
  | ok u =>
    rw [hr] at h
    cases h
    obtain ⟨u', hu, rfl⟩ := pullInstr_eq_ok hr
    rw [← hu.p]
    rfl

theorem opJsr_p {a : Addr} (h : opJsr a s = .next t) : t.p = s.p := by
  obtain ⟨u, hu, h⟩ := dummyRead_bind_eq_ok (finish_eq_next h)
  cases h
  exact hu.p

theorem opRts_p (h : opRts s = .next t) : t.p = s.p := by
  obtain ⟨u1, h1, h⟩ := dummyRead_bind_eq_ok (finish_eq_next h)
  obtain ⟨u2, h2, h⟩ := dummyRead_bind_eq_ok h
  obtain ⟨u3, h3, h⟩ := dummyRead_bind_eq_ok h
  cases h
  exact h3.p.trans (h1.trans h2).p

theorem opBrk_p (h : opBrk s = .next t) : t.p = { s.p with i := true } := by
  have h := finish_eq_next h
  cases hr : discardedRead (s.pc + 1) s with
  | error f => rw [hr] at h; cases h
  | ok u =>
    rw [hr] at h
    cases h
    rw [discardedRead_inv hr]
    rfl

end

theorem operand_jsr {i : Instr} (h : i.mnemonic = .jsr) : ∃ a, i.operand = .memory (.abs a) := by
  cases i <;> first | exact ⟨_, rfl⟩ | cases h

theorem operand_jmp {i : Instr} (h : i.mnemonic = .jmp) :
    (∃ a, i.operand = .memory (.abs a)) ∨ ∃ a, i.operand = .indirect a := by
  cases i <;> first | exact .inl ⟨_, rfl⟩ | exact .inr ⟨_, rfl⟩ | cases h

/-- An instruction writes no flag that its mnemonic's row of `writtenFlags` does not mark. -/
theorem exec_writesOnly {i : Instr} {s t : State} (h : exec i s = .next t) :
    WritesOnly (writtenFlags i.mnemonic) s.p t.p := by
  rw [exec_eq_meaning] at h
  cases hn : i.mnemonic
  case plp | rti => rfl
  case unlisted => simp only [meaning, hn] at h; cases h
  case brk => simp only [meaning, hn] at h; rw [opBrk_p h]; rfl
  case pla => simp only [meaning, hn] at h; exact opPla_writesOnly h
  case rts => simp only [meaning, hn] at h; exact writesOnly_of_eq (opRts_p h)
  case jsr =>
    obtain ⟨a, ho⟩ := operand_jsr hn
    simp only [meaning, hn, ho, onAddress] at h
    exact writesOnly_of_eq (opJsr_p h)
  case jmp =>
    rcases operand_jmp hn with ⟨a, ho⟩ | ⟨a, ho⟩ <;> simp only [meaning, hn, ho, onAddress] at h <;> cases h <;> rfl
  case tax | tay | tsx | txa | txs | tya | pha | php | inx | iny | dex | dey | clc | sec | cli | sei | clv | cld | sed | nop =>
    simp only [meaning, hn] at h
    exact impliedInstr_writesOnly h fun _ => rfl
  case bpl | bmi | bvc | bvs | bcc | bcs | bne | beq =>
    obtain ⟨b, ho⟩ := operand_relative (i := i) (by rw [hn]; rfl)
    simp only [meaning, hn, ho, onByte] at h
    exact branch_writesOnly h
  case asl | lsr | rol | ror =>
    rcases operand_memoryOrA (i := i) (by rw [hn]; rfl) with ho | ⟨m, ho⟩ <;> simp only [meaning, hn, ho] at h
    · exact impliedInstr_writesOnly h fun _ => rfl
    · exact modifyInstr_writesOnly h fun _ _ _ => rfl
  case anc | alr | arr | axs =>
    obtain ⟨b, ho⟩ := operand_immediate (i := i) (by rw [hn]; rfl)
    simp only [meaning, hn, ho, onByte] at h
    exact readInstr_writesOnly (ifAdmitted_eq_next h) fun _ _ => rfl
  all_goals
    obtain ⟨m, ho⟩ := operand_memory (i := i) (by rw [hn]; rfl)
    simp only [meaning, hn, ho, onMemory] at h
  case lda | ldx | ldy | adc | sbc | and | ora | eor | cmp | cpx | cpy | bit =>
    exact readInstr_writesOnly h fun _ _ => rfl
  case lax => exact readInstr_writesOnly (ifAdmitted_eq_next h) fun _ _ => rfl
  case sta | stx | sty => exact storeInstr_writesOnly h
  case sax => exact storeInstr_writesOnly (ifAdmitted_eq_next h)
  case inc | dec => exact modifyInstr_writesOnly h fun _ _ _ => rfl
  case dcp | isc | rla | rra | slo | sre => exact modifyInstr_writesOnly (ifAdmitted_eq_next h) fun _ _ _ => rfl

/-- Settles O14: each clause is about the rows of `writtenFlags`. -/
theorem onlyListedInstructionsWriteFlags : Obligations.OnlyListedInstructionsWriteFlags := by
  intro i s t h
  have hw := exec_writesOnly h
  generalize i.mnemonic = m at hw ⊢
  refine ⟨fun hm => hw.eq_of_noFlags ?_, fun hm => ⟨hw.n ?_, hw.z ?_⟩, fun hm => hw.v ?_, fun hm => hw.d ?_,
    fun hm => hw.i ?_, fun hm => hw.c ?_⟩
  all_goals
    clear hw
    revert hm
    cases m <;> decide

/-! ### D is inert -/

/-- Change the next state of an outcome; a fault or a refusal stays. -/
def mapNext (g : State → State) : Result → Result
  | .next t => .next (g t)
  | .fault f => .fault f
  | .refused r => .refused r

theorem finish_map (g : State → State) (c : Except Fault State) : finish (c.map g) = mapNext g (finish c) := by
  cases c <;> rfl

/-- A choice made alike on both sides commutes with what its branches commute with. -/
theorem ite_commutes {α β : Type} {c c' : Prop} [Decidable c] [Decidable c'] {g : α → β} {x y : α} {x' y' : β}
    (hc : c' ↔ c) (hx : x' = g x) (hy : y' = g y) : (if c' then x' else y') = g (if c then x else y) := by
  rw [apply_ite g, hx, hy]
  exact if_congr hc rfl rfl

/-- If a computation commutes with a change and what follows it does, so does the whole. -/
theorem bind_commutes {α β : Type} {r r' : Except Fault α} {k k' : α → Except Fault β} {f : α → α} {g : β → β}
    (hr : r' = r.map f) (hk : ∀ x, k' (f x) = (k x).map g) : r'.bind k' = (r.bind k).map g := by
  subst hr
  cases r with
  | error e => rfl
  | ok x => exact hk x

section
variable (d : Bool) (s : State)

theorem dummyRead_setD (a : Addr) : dummyRead a (setD d s) = (dummyRead a s).map (setD d) := by
  unfold dummyRead
  rw [setD_cfg]
  split
  · rfl
  · exact ite_commutes Iff.rfl rfl rfl

theorem dummyWrite_setD (a : Addr) (v : Byte) : dummyWrite a v (setD d s) = (dummyWrite a v s).map (setD d) := by
  unfold dummyWrite
  rw [setD_cfg]
  split
  · rfl
  · exact ite_commutes Iff.rfl rfl rfl

variable {d s}

theorem dummyRead_bind_setD {β : Type} {a : Addr} {k k' : State → Except Fault β} {g : β → β}
    (hk : ∀ u, k' (setD d u) = (k u).map g) : (dummyRead a (setD d s)).bind k' = ((dummyRead a s).bind k).map g :=
  bind_commutes (dummyRead_setD d s a) hk

variable (d s)

theorem indexed_setD (always : Bool) (base : Addr) (idx : Byte) :
    indexed always base idx (setD d s) = (indexed always base idx s).map fun x => (x.1, setD d x.2) := by
  unfold indexed
  rw [dummyRead_setD]
  split
  · cases dummyRead (uncorrected base idx) s <;> rfl
  · rfl

/-- No addressing mode reads D. -/
theorem address_setD (always : Bool) (m : MemOperand) :
    address always m (setD d s) = (address always m s).map fun x => (x.1, setD d x.2) := by
  cases m with
  | imm b | zp b | abs a => rfl
  | zpX b | zpY b | indX b => exact dummyRead_bind_setD fun _ => rfl
  | absX a | absY a => exact indexed_setD d s ..
  | indY b => exact indexed_setD d (read16ZP b s).2 ..

theorem readOperand_setD (m : MemOperand) :
    readOperand m (setD d s) = (readOperand m s).map fun x => (x.1, setD d x.2) := by
  by_cases hm : ∃ b, m = .imm b
  · obtain ⟨b, rfl⟩ := hm
    rfl
  · rw [readOperand_of_ne_imm (not_exists.1 hm), readOperand_of_ne_imm (not_exists.1 hm)]
    exact bind_commutes (address_setD d s false m) fun _ => rfl

variable {d s}

theorem readInstr_setD {m : MemOperand} {f : Byte → State → State} (hf : ∀ v u, f v (setD d u) = setD d (f v u)) :
    readInstr m f (setD d s) = mapNext (setD d) (readInstr m f s) := by
  refine (congrArg finish (bind_commutes (readOperand_setD d s m) fun x => ?_)).trans (finish_map (setD d) _)
  rw [hf]
  rfl

theorem storeInstr_setD {m : MemOperand} {v : State → Byte} (hv : ∀ u, v (setD d u) = v u) :
    storeInstr m v (setD d s) = mapNext (setD d) (storeInstr m v s) := by
  refine (congrArg finish (bind_commutes (address_setD d s true m) fun x => ?_)).trans (finish_map (setD d) _)
  rw [hv]
  rfl

/-- A read-modify-write commutes with a change of D where the byte it writes does not depend on D. -/
theorem modifyInstr_setD {m : MemOperand} {f : State → Byte → Byte} {g : Byte → Byte → State → State}
    (hf : ∀ u v, f (setD d u) v = f u v) (hg : ∀ v r u, g v r (setD d u) = setD d (g v r u)) :
    modifyInstr m f g (setD d s) = mapNext (setD d) (modifyInstr m f g s) := by
  refine (congrArg finish (bind_commutes (address_setD d s true m) fun x => ?_)).trans (finish_map (setD d) _)
  refine bind_commutes (dummyWrite_setD d (afterRead x.1 x.2) x.1 (readValue x.1 x.2)) fun u => ?_
  rw [hf]
  exact congrArg (fun t => Except.ok (advance m.length t)) (hg _ _ (write x.1 (f u (readValue x.1 x.2)) u))

theorem impliedInstr_setD {f g : State → State} (hf : ∀ u, advance 1 (f (setD d u)) = g (advance 1 (f u))) :
    impliedInstr f (setD d s) = mapNext g (impliedInstr f s) :=
  (congrArg finish (dummyRead_bind_setD fun u => congrArg Except.ok (hf u))).trans (finish_map g _)

theorem branch_setD (cond : Bool) (offset : Byte) :
    branch cond offset (setD d s) = mapNext (setD d) (branch cond offset s) := by
  cases cond with
  | false => rfl
  | true =>
    refine (congrArg finish (dummyRead_bind_setD fun u => ?_)).trans (finish_map (setD d) _)
    exact ite_commutes Iff.rfl (dummyRead_bind_setD fun _ => rfl) rfl

theorem ifAdmitted_setD {op : Byte} {r r' : Result} (h : r' = mapNext (setD d) r) :
    ifAdmitted op (setD d s) r' = mapNext (setD d) (ifAdmitted op s r) :=
  ite_commutes Iff.rfl h rfl

theorem pullInstr_setD {f g : State → State} (hf : ∀ u, f (setD d u) = g (f u)) :
    pullInstr f (setD d s) = (pullInstr f s).map g :=
  dummyRead_bind_setD fun _ => dummyRead_bind_setD fun u => congrArg Except.ok (hf u)

theorem opPla_setD : opPla (setD d s) = mapNext (setD d) (opPla s) := by
  refine (congrArg finish (bind_commutes (pullInstr_setD (g := setD d) ?_) ?_)).trans (finish_map (setD d) _) <;>
    exact fun _ => rfl

/-- PLP loads D from the stack: the D before is gone. -/
theorem opPlp_setD : opPlp (setD d s) = mapNext id (opPlp s) := by
  refine (congrArg finish (bind_commutes (pullInstr_setD (g := id) ?_) ?_)).trans (finish_map id _) <;>
    exact fun _ => rfl

theorem opRti_setD : opRti (setD d s) = mapNext id (opRti s) :=
  (congrArg finish (dummyRead_bind_setD fun _ => dummyRead_bind_setD fun _ => rfl)).trans (finish_map id _)

theorem opJsr_setD {a : Addr} : opJsr a (setD d s) = mapNext (setD d) (opJsr a s) :=
  (congrArg finish (dummyRead_bind_setD fun _ => rfl)).trans (finish_map (setD d) _)

theorem opRts_setD : opRts (setD d s) = mapNext (setD d) (opRts s) :=
  (congrArg finish (dummyRead_bind_setD fun _ => dummyRead_bind_setD fun u =>
    dummyRead_bind_setD (s := (pullAddr u).2) fun _ => rfl)).trans (finish_map (setD d) _)

end

/-- What a difference in D before an instruction makes after it: nothing where the mnemonic loads D, else that same difference. -/
def carryD (m : Mnemonic) (d : Bool) : State → State :=
  match m with
  | .cld | .sed | .plp | .rti => id
  | _ => setD d

/-- A difference in D can only be a difference in D. -/
theorem carryD_eq_setD (m : Mnemonic) (d : Bool) (t : State) : carryD m d t = setD (carryD m d t).p.d t := by
  unfold carryD
  split <;> rfl

/-- An instruction that pushes no status byte commutes with a change of D (10_state.md R20). -/
theorem exec_setD {i : Instr} (hphp : i.mnemonic ≠ .php) (hbrk : i.mnemonic ≠ .brk) (d : Bool) (s : State) :
    exec i (setD d s) = mapNext (carryD i.mnemonic d) (exec i s) := by
  rw [exec_eq_meaning, exec_eq_meaning]
  cases hn : i.mnemonic
  case php => exact absurd hn hphp
  case brk => exact absurd hn hbrk
  case unlisted => simp only [meaning, hn]; rfl
  case plp => simp only [meaning, hn]; exact opPlp_setD
  case rti => simp only [meaning, hn]; exact opRti_setD
  case pla => simp only [meaning, hn]; exact opPla_setD
  case rts => simp only [meaning, hn]; exact opRts_setD
  case jsr =>
    obtain ⟨a, ho⟩ := operand_jsr hn
    simp only [meaning, hn, ho, onAddress]
    exact opJsr_setD
  case jmp =>
    rcases operand_jmp hn with ⟨a, ho⟩ | ⟨a, ho⟩ <;> simp only [meaning, hn, ho, onAddress] <;> rfl
  case tax | tay | tsx | txa | txs | tya | pha | inx | iny | dex | dey | clc | sec | cli | sei | clv | cld | sed | nop =>
    simp only [meaning, hn]
    exact impliedInstr_setD fun _ => rfl
  case bpl | bmi | bvc | bvs | bcc | bcs | bne | beq =>
    obtain ⟨b, ho⟩ := operand_relative (i := i) (by rw [hn]; rfl)
    simp only [meaning, hn, ho, onByte]
    exact branch_setD ..
  case asl | lsr | rol | ror =>
    rcases operand_memoryOrA (i := i) (by rw [hn]; rfl) with ho | ⟨m, ho⟩ <;> simp only [meaning, hn, ho]
    · exact impliedInstr_setD fun _ => rfl
    · exact modifyInstr_setD (fun _ _ => rfl) fun _ _ _ => rfl
  case anc | alr | arr | axs =>
    obtain ⟨b, ho⟩ := operand_immediate (i := i) (by rw [hn]; rfl)
    simp only [meaning, hn, ho, onByte]
    exact ifAdmitted_setD (readInstr_setD fun _ _ => rfl)
  all_goals
    obtain ⟨m, ho⟩ := operand_memory (i := i) (by rw [hn]; rfl)
    simp only [meaning, hn, ho, onMemory]
  case lda | ldx | ldy | adc | sbc | and | ora | eor | cmp | cpx | cpy | bit => exact readInstr_setD fun _ _ => rfl
  case lax => exact ifAdmitted_setD (readInstr_setD fun _ _ => rfl)
  case sta | stx | sty => exact storeInstr_setD fun _ => rfl
  case sax => exact ifAdmitted_setD (storeInstr_setD fun _ => rfl)
  case inc | dec => exact modifyInstr_setD (fun _ _ => rfl) fun _ _ _ => rfl
  case dcp | isc | rla | rra | slo | sre => exact ifAdmitted_setD (modifyInstr_setD (fun _ _ => rfl) fun _ _ _ => rfl)

/-- Settles O15: the instruction commutes with the change of D, and what is left of the change is in D. -/
theorem decimalFlagHasNoEffect : Obligations.DecimalFlagHasNoEffect := by
  intro i s t d hphp hbrk h
  refine ⟨(carryD i.mnemonic d t).p.d, ?_⟩
  have hexec : exec i (setD d s) = .next (carryD i.mnemonic d t) := by rw [exec_setD hphp hbrk, h]; rfl
  rw [carryD_eq_setD] at hexec
  exact hexec

end Sys2Proof.Machine

/-!
PROOFS. The statements about memory (20_memory.md): the mirrors of RAM and of the PPU registers, what a write changes, and the
sixteen-bit reads. An access depends on its address through the cell alone, which settles both kinds of mirror.
-/

namespace Sys2Proof.Machine

/-! ### An access depends on the cell of its address -/

theorem physical_of_ram {a : Addr} (h : a.toNat < 0x2000) : physical a = a &&& 0x07FF := if_pos h

theorem physical_of_ppu {a : Addr} (h : 0x2000 ≤ a.toNat) (h' : a.toNat < 0x4000) : physical a = 0x2000 + (a &&& 7) :=
  (if_neg (Nat.not_lt.2 h)).trans (if_pos h')

theorem cell_eq_cell_iff {a b : Addr} : cell a = cell b ↔ physical a = physical b := BitVec.toNat_inj

/-- Resolving the mirrors once is enough. -/
theorem cell_physical (a : Addr) : cell (physical a) = cell a := by
  have haddr : BitVec.ofNat 16 (cell a) = physical a := by rw [cell, BitVec.ofNat_toNat, BitVec.setWidth_eq]
  rw [← haddr, cell_cell]

/-- The cells below $2000 are those of internal RAM. -/
theorem cell_lt_ram_iff (a : Addr) : cell a < 0x2000 ↔ a.toNat < 0x2000 := by
  rw [cell_eq]
  split_ifs <;> omega

/-- The DMA port $4014 has no mirror. -/
theorem cell_eq_4014_iff (a : Addr) : cell a = 0x4014 ↔ a = 0x4014 := by
  rw [cell_eq, ← BitVec.toNat_inj]
  split_ifs <;> simp <;> omega

section
variable {a b : Addr} (h : cell a = cell b) (s : State)
include h

theorem kindAt_of_cell_eq : kindAt s a = kindAt s b := by
  have hram : a.toNat < 0x2000 ↔ b.toNat < 0x2000 := by rw [← cell_lt_ram_iff, h, cell_lt_ram_iff]
  simp only [kindAt, hram, h]

theorem isDevice_of_cell_eq : isDevice s a = isDevice s b := by simp only [isDevice, kindAt_of_cell_eq h]

theorem isWritable_of_cell_eq : isWritable s a = isWritable s b := by simp only [isWritable, kindAt_of_cell_eq h]

theorem readValue_of_cell_eq : readValue a s = readValue b s := by
  simp only [readValue, byteAt, isDevice_of_cell_eq h, cell_eq_cell_iff.1 h, h]

theorem write_of_cell_eq (v : Byte) : write a v s = write b v s := by
  have hdma : a = 0x4014 ↔ b = 0x4014 := by rw [← cell_eq_4014_iff, h, cell_eq_4014_iff]
  simp only [write, isWritable_of_cell_eq h, isDevice_of_cell_eq h, cell_eq_cell_iff.1 h, hdma, h]

end

/-! ### Mirrors and writes -/

/-- Two addresses of internal RAM share their cell if and only if they agree in their low 11 bits (20_memory.md R44). -/
theorem cell_eq_cell_iff_of_ram {a b : Addr} (ha : a.toNat < 0x2000) (hb : b.toNat < 0x2000) :
    cell a = cell b ↔ a &&& 0x07FF = b &&& 0x07FF := by
  rw [cell_eq_cell_iff, physical_of_ram ha, physical_of_ram hb]

/-- A write at a device stores nothing. -/
theorem isWritable_of_isDevice {s : State} {a : Addr} (h : isDevice s a = true) : isWritable s a = false := by
  unfold isDevice at h
  unfold isWritable
  cases hk : kindAt s a with
  | memory => rw [hk] at h; cases h
  | rom => rfl
  | device e => rfl

/-- A write that is not stored leaves memory alone (20_memory.md R56). -/
theorem write_mem_of_not_writable {s : State} {a : Addr} (h : isWritable s a = false) (v : Byte) :
    (write a v s).mem = s.mem := by
  rw [write_mem, h]
  rfl

/-- Settles O6: the low 11 bits fix the cell, and the laws of `write` are about cells. -/
theorem ramIsMirrored : Obligations.RamIsMirrored := by
  intro s a b v ha hb
  have hcell := cell_eq_cell_iff_of_ram hb ha
  refine ⟨by simp [ram_isDevice ha], by simp [ram_isDevice ha], fun heq => ?_, fun hne => ?_⟩
  · have hba : cell b = cell a := hcell.2 heq.symm
    refine ⟨readValue_of_cell_eq hba s, fun hwf => ?_⟩
    rw [readValue_ram hb, byteAt_write_same hwf (ram_isWritable ha) hba]
  · have hba : cell b ≠ cell a := fun e => hne (hcell.1 e).symm
    rw [readValue_ram hb, readValue_ram hb, onlyCellChanges_write a v s b hba]

/-- Settles O8, from the laws of `write` and of memory as data. -/
theorem writeChangesOneCell : Obligations.WriteChangesOneCell := by
  intro a v s
  exact ⟨sameButStore_write a v s, write_pc a v s, onlyCellChanges_write a v s, holdsAt_write a v s,
    fun h => write_mem_of_not_writable h v, (keeps_write a v s).wf⟩

/-- Settles O7: `$2000 + (a & 7)` is the physical address, which has the cell of `a`. -/
theorem ppuRegistersAreMirrored : Obligations.PpuRegistersAreMirrored := by
  intro s a v hlow hhigh
  rw [← physical_of_ppu hlow hhigh]
  have hcell : cell a = cell (physical a) := (cell_physical a).symm
  refine ⟨readValue_of_cell_eq hcell s, write_of_cell_eq hcell s v, fun hdev => ⟨?_, ?_, ?_⟩⟩
  · rw [afterRead_busLog, if_pos hdev]
  · rw [write_busLog, if_pos hdev]
  · exact write_mem_of_not_writable (isWritable_of_isDevice hdev) v

/-! ### Sixteen-bit reads -/

/-- Two reads of devices are recorded in order, the newest first (20_memory.md R54). -/
theorem readPair_busLog {l h : Addr} {s : State} (hl : isDevice s l = true) (hh : isDevice s h = true) :
    (readPair l h s).2.busLog = .read (physical h) :: .read (physical l) :: s.busLog := by
  have hh' : isDevice (afterRead l s) h = true := hh
  show (afterRead h (afterRead l s)).busLog = _
  rw [afterRead_busLog, if_pos hh', afterRead_busLog, if_pos hl]

/-- The second address of `Read16Page` is the next one where the low byte is not $FF. -/
theorem samePage_eq_succ {a : Addr} (h : lo a ≠ 0xFF) : (a &&& 0xFF00 ||| (a + 1) &&& 0x00FF : Addr) = a + 1 := by
  have hlo : a.toNat % 256 ≠ 255 := by rw [← lo_toNat]; exact fun e => h (BitVec.eq_of_toNat_eq e)
  have := a.isLt
  rw [samePage]
  apply BitVec.eq_of_toNat_eq
  rw [join_toNat, BitVec.toNat_add, BitVec.toNat_add, hi_toNat, lo_toNat]
  show a.toNat / 256 * 256 + (a.toNat % 256 + 1) % 256 = (a.toNat + 1) % 65536
  omega

/-- Where the low byte is $FF, the second address of `Read16Page` is the first of the page (20_memory.md R50). -/
theorem samePage_eq_start {a : Addr} (h : lo a = 0xFF) : (a &&& 0xFF00 ||| (a + 1) &&& 0x00FF : Addr) = a - 0xFF := by
  have hlo : a.toNat % 256 = 255 := by rw [← lo_toNat, h]; rfl
  have hwrap : lo a + 1 = 0 := by rw [h]; rfl
  have hle : (0xFF : Addr) ≤ a := by rw [BitVec.le_def]; show 255 ≤ a.toNat; omega
  rw [samePage, hwrap]
  apply BitVec.eq_of_toNat_eq
  rw [join_toNat, hi_toNat, BitVec.toNat_sub_of_le hle]
  show a.toNat / 256 * 256 + 0 = a.toNat - 255
  omega

/-- Settles O9: each read is a pair of reads, and `Read16Page` takes its second address from the same page. -/
theorem pointerReads : Obligations.PointerReads := by
  intro s a z
  refine ⟨read16ZP_spec z s, readPair_memory, readPair_busLog, fun hlo => ?_, fun hlo hl hh => ?_⟩
  · rw [read16Page, samePage_eq_succ hlo, read16]
  · rw [read16Page, samePage_eq_start hlo, readPair_memory hl hh]

end Sys2Proof.Machine

/-!
PROOFS. The statements about the encoding (30_encoding.md): that decoding and encoding undo each other, what the opcode byte fixes,
and the bytes that are no instruction of the platform.
-/

namespace Sys2Proof.Machine

/-! ### What an entry of the opcode matrix builds -/

/-- An entry of the opcode matrix makes an instruction of operand bytes, in stream order (30_encoding.md R71, R73). -/
inductive Builds : Entry → List Byte → Instr → Prop where
  | one (i : Instr) : Builds (.one i) [] i
  | two {mk : Byte → Instr} {i : Instr} (b : Byte) (h : mk b = i) : Builds (.two mk) [b] i
  | three {mk : Addr → Instr} {i : Instr} (a : Addr) (h : mk a = i) : Builds (.three mk) [lo a, hi a] i

/-- The decoder reads the operand bytes that the entry of the opcode byte asks for, and no more. -/
theorem decode_cons_iff (op : Byte) (bs rest : List Byte) (i : Instr) :
    decode (op :: bs) = .ok (i, rest) ↔ ∃ bytes, Builds (entryOf op) bytes i ∧ bs = bytes ++ rest := by
  simp only [decode]
  generalize entryOf op = e
  constructor
  · intro h
    split at h
    · cases h; exact ⟨[], .one i, rfl⟩
    · rename_i b _; cases h; exact ⟨[b], .two b rfl, rfl⟩
    · rename_i b1 b2 _
      cases h
      exact ⟨[b1, b2], by simpa only [lo_join, hi_join] using Builds.three (join b2 b1) rfl, rfl⟩
    · cases h
  · rintro ⟨bytes, hb, rfl⟩
    cases hb with
    | one => rfl
    | two b h => rw [← h]; rfl
    | three a h => simp only [← h, List.cons_append, List.nil_append, join_hi_lo]

/-- Every byte is an opcode byte, and no instruction is longer than three bytes (30_encoding.md R70, R84). -/
theorem exists_decode_eq_ok (op b1 b2 : Byte) : ∃ i rest, decode [op, b1, b2] = .ok (i, rest) := by
  simp only [decode]
  cases entryOf op <;> exact ⟨_, _, rfl⟩

/-- Each instruction is built by the entry of its own opcode byte, from its own operand bytes. -/
theorem builds_of_instr (i : Instr) : Builds (entryOf i.opcode) i.operand.bytes i := by
  cases i
  all_goals dsimp only [Instr.opcode]
  all_goals constructor
  all_goals rfl

/-- Each entry of the matrix builds the instructions whose encoding is its place and the operand bytes. -/
theorem encode_of_builds_ofNat (n : Nat) (h : n < 256) {bytes : List Byte} {i : Instr}
    (hb : Builds (entryOf (BitVec.ofNat 8 n)) bytes i) : encode i = BitVec.ofNat 8 n :: bytes := by
  interval_cases n
  all_goals rcases hb with _ | ⟨_, rfl⟩ | ⟨_, rfl⟩
  all_goals rfl

theorem encode_of_builds {op : Byte} {bytes : List Byte} {i : Instr} (hb : Builds (entryOf op) bytes i) :
    encode i = op :: bytes := by
  have hop : BitVec.ofNat 8 op.toNat = op := by rw [BitVec.ofNat_toNat, BitVec.setWidth_eq]
  simpa only [hop] using encode_of_builds_ofNat op.toNat op.isLt (hop.symm ▸ hb)

/-- Settles O1: an instruction is built by the entry of its opcode byte, and the decoder reads what the entry asks for. -/
theorem decodeUndoesEncode : Obligations.DecodeUndoesEncode := fun i rest =>
  (decode_cons_iff i.opcode (i.operand.bytes ++ rest) rest i).2 ⟨i.operand.bytes, builds_of_instr i, rfl⟩

/-- Settles O2: what the entry of the opcode byte builds has that opcode byte and those operand bytes. -/
theorem encodeUndoesDecode : Obligations.EncodeUndoesDecode := by
  intro bs i rest h
  cases bs with
  | nil => cases h
  | cons op bs =>
    obtain ⟨bytes, hb, rfl⟩ := (decode_cons_iff op bs rest i).1 h
    rw [encode_of_builds hb, List.cons_append]

/-- Settles O3: the table lookup, word by word. -/
theorem sampleWordsDecode : Obligations.SampleWordsDecode :=
  ⟨rfl, rfl, rfl, rfl, rfl, rfl, rfl, rfl, rfl, rfl, rfl, rfl, rfl, rfl, rfl, rfl, rfl, rfl, rfl, rfl⟩

/-! ### What the opcode byte fixes -/

/-- One instruction of an entry: the one whose operand bytes are zero. -/
def sampleInstr : Entry → Instr
  | .one i => i
  | .two mk => mk 0
  | .three mk => mk 0

/-- Whatever its operand bytes, an instruction has the mnemonic and the length of its entry's sample. -/
theorem mnemonic_and_length_eq_sample (i : Instr) :
    i.mnemonic = (sampleInstr (entryOf i.opcode)).mnemonic ∧ i.length = (sampleInstr (entryOf i.opcode)).length := by
  cases i
  all_goals dsimp only [Instr.opcode]
  all_goals exact ⟨rfl, rfl⟩

/-- The opcode byte alone decides the mnemonic and the length (30_encoding.md R70). -/
theorem mnemonic_and_length_of_opcode {i j : Instr} (h : i.opcode = j.opcode) :
    i.mnemonic = j.mnemonic ∧ i.length = j.length := by
  obtain ⟨him, hil⟩ := mnemonic_and_length_eq_sample i
  obtain ⟨hjm, hjl⟩ := mnemonic_and_length_eq_sample j
  exact ⟨by rw [him, h, ← hjm], by rw [hil, h, ← hjl]⟩

theorem encode_length (i : Instr) : (encode i).length = i.length := by
  unfold encode Instr.length
  cases i.operand with
  | memory m => cases m <;> rfl
  | _ => rfl

/-- An instruction that decodes begins with its opcode byte, and the rest begins after its length. -/
theorem decode_cons_eq_ok {op : Byte} {bs rest : List Byte} {i : Instr} (h : decode (op :: bs) = .ok (i, rest)) :
    i.opcode = op ∧ rest.length + i.length = bs.length + 1 := by
  have henc : encode i ++ rest = op :: bs := encodeUndoesDecode _ _ _ h
  have hlen := congrArg List.length henc
  rw [List.length_append, encode_length, List.length_cons] at hlen
  exact ⟨(List.cons.inj henc).1, by omega⟩

/-- Settles O4: the byte strings that decode are encodings, and the opcode byte fixes the rest. -/
theorem everyOpcodeByteDecodes : Obligations.EveryOpcodeByteDecodes := by
  intro op b1 b2
  obtain ⟨i, rest, hi⟩ := exists_decode_eq_ok op b1 b2
  obtain ⟨hop, hlen⟩ := decode_cons_eq_ok hi
  refine ⟨i, rest, hi, hop, hlen, fun c1 c2 j rest' hj => ?_⟩
  obtain ⟨hmnemonic, hlength⟩ := mnemonic_and_length_of_opcode ((decode_cons_eq_ok hj).1.trans hop.symm)
  exact ⟨hmnemonic, congrArg Mnemonic.status hmnemonic, hlength⟩

/-- Settles O5, by evaluating the decoder at each of the 256 bytes and counting. -/
theorem opcodeClassCounts : Obligations.OpcodeClassCounts := by
  unfold Obligations.OpcodeClassCounts
  decide +kernel

/-! ### Bytes that the platform does not run -/

/-- An undocumented instruction asks first whether the platform admits it (30_encoding.md R81). -/
theorem exec_of_undocumented {i : Instr} (h : i.status = .undocumented) (s : State) :
    ∃ r, exec i s = ifAdmitted i.opcode s r := by
  rw [exec_eq_meaning]
  unfold Instr.status at h
  cases hn : i.mnemonic
  case anc | alr | arr | axs =>
    obtain ⟨b, ho⟩ := operand_immediate (i := i) (by rw [hn]; rfl)
    simp only [meaning, hn, ho, onByte]
    exact ⟨_, rfl⟩
  case sax | lax | dcp | isc | rla | rra | slo | sre =>
    obtain ⟨m, ho⟩ := operand_memory (i := i) (by rw [hn]; rfl)
    simp only [meaning, hn, ho, onMemory]
    exact ⟨_, rfl⟩
  all_goals (rw [hn] at h; cases h)

theorem ifAdmitted_of_not_admitted {s : State} (h : s.cfg.admitUndocumented = false) (op : Byte) (r : Result) :
    ifAdmitted op s r = .fault (.undocumentedNotAdmitted op s.pc) := by
  simp [ifAdmitted, h]

/-- Settles O48: an undocumented instruction asks whether it is admitted before it does anything else. -/
theorem undocumentedNotAdmittedFaults : Obligations.UndocumentedNotAdmittedFaults := by
  intro i s hi hs
  obtain ⟨r, hr⟩ := exec_of_undocumented hi s
  rw [hr, ifAdmitted_of_not_admitted hs]

theorem eq_unlisted_of_status {m : Mnemonic} (h : m.status = .unlisted) : m = .unlisted := by
  cases m <;> first | rfl | cases h

theorem exec_of_unlisted {i : Instr} (h : i.status = .unlisted) (s : State) :
    exec i s = .fault (.unlistedOpcode i.opcode s.pc) := by
  rw [exec_eq_meaning]
  simp only [meaning, eq_unlisted_of_status h, opUnlisted]

/-- A byte whose entry is an unlisted instruction is a fault that names it (30_encoding.md R82). -/
theorem unlisted_faults_of_entry {op : Byte} {i : Instr} (he : entryOf op = .one i) (hi : i.status = .unlisted) :
    ∃ i, decode [op] = .ok (i, []) ∧ i.status = .unlisted ∧ ∀ s, exec i s = .fault (.unlistedOpcode op s.pc) := by
  have hd : decode [op] = .ok (i, []) := (decode_cons_iff op [] [] i).2 ⟨[], he ▸ .one i, rfl⟩
  have hop : i.opcode = op := (decode_cons_eq_ok hd).1
  exact ⟨i, hd, hi, fun s => hop ▸ exec_of_unlisted hi s⟩

/-- Settles O49: each byte of the list has an unlisted instruction as its entry in the matrix. -/
theorem unlistedOpcodesFault : Obligations.UnlistedOpcodesFault := by
  unfold Obligations.UnlistedOpcodesFault
  repeat refine List.forall_mem_cons.2 ⟨unlisted_faults_of_entry rfl rfl, ?_⟩
  exact List.forall_mem_nil _

end Sys2Proof.Machine

/-!
PROOFS. The addressing modes (40_addressing_modes.md): where no dummy access of the mode stops, the effective address and the
operand byte are those of the spec's table, by `address_ok`, `readOperand_ok` and `readOperand_memory`; index arithmetic is
that of the addresses as numbers.
-/

namespace Sys2Proof.Machine

/-! ### Effective addresses and operand bytes -/

/-- Settles O16: `address_ok` goes through the modes and gives the cycles as well. -/
theorem effectiveAddresses : Obligations.EffectiveAddresses := by
  intro always m s hdummies
  obtain ⟨t, haddress, hbus, -⟩ := address_ok hdummies
  exact ⟨t, haddress, hbus⟩

theorem readOperand_imm (b : Byte) (s : State) : readOperand (.imm b) s = .ok (b, s) := rfl

/-- Settles O17: an immediate byte comes from the instruction, any other byte from the effective address. -/
theorem operandBytes : Obligations.OperandBytes := by
  intro m s hdummies
  obtain ⟨v, t, hread, hbus, -⟩ := readOperand_ok hdummies
  refine ⟨v, t, hread, hbus, ?immediate, fun hm hmemory => readOperand_memory hdummies hm hmemory hread⟩
  case immediate =>
    rintro b rfl
    rw [readOperand_imm] at hread
    cases hread
    rfl

/-! ### Index arithmetic -/

/-- A zero-page index wraps within page $00 (40_addressing_modes.md R93, R94). -/
theorem zext_add_toNat (b idx : Byte) : (zext (b + idx)).toNat = (b.toNat + idx.toNat) % 256 := by
  rw [zext_toNat, BitVec.toNat_add]

/-- A 16-bit index is unsigned and wraps at 65536 (40_addressing_modes.md R96, R97). -/
theorem add_zext_toNat (base : Addr) (idx : Byte) : (base + zext idx).toNat = (base.toNat + idx.toNat) % 65536 := by
  rw [BitVec.toNat_add, zext_toNat]

/-- An index reaches the low byte as 8-bit addition; only the carry is lost. -/
theorem lo_add_zext (base : Addr) (idx : Byte) : lo (base + zext idx) = lo base + idx := by
  apply BitVec.eq_of_toNat_eq
  rw [lo_toNat, add_zext_toNat, BitVec.toNat_add, lo_toNat]
  omega

/-- The page stays the same exactly when the low byte and the index give no carry, at the top of memory too. -/
theorem hi_add_zext_eq_iff (base : Addr) (idx : Byte) :
    hi (base + zext idx) = hi base ↔ (lo base).toNat + idx.toNat < 256 := by
  rw [← BitVec.toNat_inj, hi_toNat, hi_toNat, add_zext_toNat, lo_toNat]
  have hbase := base.isLt
  have hidx := idx.isLt
  omega

theorem pageCrossed_eq_false_iff (base : Addr) (idx : Byte) :
    pageCrossed base idx = false ↔ hi (base + zext idx) = hi base := bne_eq_false_iff_eq

/-- A page is crossed exactly when the low byte and the index give a carry (40_addressing_modes.md R96, R97, R100). -/
theorem pageCrossed_iff (base : Addr) (idx : Byte) :
    pageCrossed base idx = true ↔ 256 ≤ (lo base).toNat + idx.toNat := by
  rw [← Bool.not_eq_false, pageCrossed_eq_false_iff, hi_add_zext_eq_iff, Nat.not_lt]

/-- Within the page the high byte needs no correction. -/
theorem uncorrected_of_not_pageCrossed {base : Addr} {idx : Byte} (h : pageCrossed base idx = false) :
    uncorrected base idx = base + zext idx := by
  rw [pageCrossed_eq_false_iff] at h
  rw [uncorrected, ← h, ← lo_add_zext, join_hi_lo]

/-- Settles O18: the indexed addresses as numbers, and the carry out of the low byte. -/
theorem indexArithmetic : Obligations.IndexArithmetic := fun s b idx base =>
  ⟨zext_add_toNat b s.x, zext_add_toNat b s.y, add_zext_toNat base s.x, add_zext_toNat base s.y,
    pageCrossed_iff base idx, uncorrected_of_not_pageCrossed⟩

end Sys2Proof.Machine

/-!
PROOFS. Loads and stores (41_load_store.md): each has the shape `readInstr` or `storeInstr`, whatever its mode, so the
laws of the two shapes settle every row of a mnemonic at once.
-/

namespace Sys2Proof.Machine

/-! ### The meaning of a mnemonic with a memory operand -/

section
variable {i : Instr} {m : MemOperand} (ho : i.operand = .memory m) (s : State)
include ho

theorem exec_lda (hn : i.mnemonic = .lda) : exec i s = readInstr m loadA s := by
  rw [exec_eq_meaning, meaning, hn, ho]; rfl

theorem exec_ldx (hn : i.mnemonic = .ldx) : exec i s = readInstr m loadX s := by
  rw [exec_eq_meaning, meaning, hn, ho]; rfl

theorem exec_ldy (hn : i.mnemonic = .ldy) : exec i s = readInstr m loadY s := by
  rw [exec_eq_meaning, meaning, hn, ho]; rfl

theorem exec_sta (hn : i.mnemonic = .sta) : exec i s = storeInstr m State.a s := by
  rw [exec_eq_meaning, meaning, hn, ho]; rfl

theorem exec_stx (hn : i.mnemonic = .stx) : exec i s = storeInstr m State.x s := by
  rw [exec_eq_meaning, meaning, hn, ho]; rfl

theorem exec_sty (hn : i.mnemonic = .sty) : exec i s = storeInstr m State.y s := by
  rw [exec_eq_meaning, meaning, hn, ho]; rfl

end

/-! ### Loads -/

/-- After the operand is read the flags and PC are still those before the instruction, so a load may take them from there. -/
theorem advance_loadA {s u : State} (hu : SameButBus s u) (n : Nat) (v : Byte) : advance n (loadA v u) =
    { u with a := v, p := { s.p with n := v.getLsbD 7, z := v == 0 }, pc := s.pc + BitVec.ofNat 16 n } := by
  rw [← hu.p, ← hu.pc]; rfl

theorem advance_loadX {s u : State} (hu : SameButBus s u) (n : Nat) (v : Byte) : advance n (loadX v u) =
    { u with x := v, p := { s.p with n := v.getLsbD 7, z := v == 0 }, pc := s.pc + BitVec.ofNat 16 n } := by
  rw [← hu.p, ← hu.pc]; rfl

theorem advance_loadY {s u : State} (hu : SameButBus s u) (n : Nat) (v : Byte) : advance n (loadY v u) =
    { u with y := v, p := { s.p with n := v.getLsbD 7, z := v == 0 }, pc := s.pc + BitVec.ofNat 16 n } := by
  rw [← hu.p, ← hu.pc]; rfl

/-- Settles O19: a load reads its operand byte, then loads the register and moves on. -/
theorem loadResults : Obligations.LoadResults := by
  intro i s h
  refine ⟨fun hn => ?lda, fun hn => ?ldx, fun hn => ?ldy⟩
  all_goals obtain ⟨m, ho⟩ := operand_memory (i := i) (by rw [hn]; rfl)
  case lda => exact (readsThen_of h (by rw [hn]; rfl) ho (exec_lda ho s hn)).congr fun v _ hu => advance_loadA hu i.length v
  case ldx => exact (readsThen_of h (by rw [hn]; rfl) ho (exec_ldx ho s hn)).congr fun v _ hu => advance_loadX hu i.length v
  case ldy => exact (readsThen_of h (by rw [hn]; rfl) ho (exec_ldy ho s hn)).congr fun v _ hu => advance_loadY hu i.length v

/-! ### Stores -/

/-- Settles O20: the mode reaches its effective address with the register still as it was, and one write follows. -/
theorem storeResults : Obligations.StoreResults := by
  intro i s h
  refine ⟨fun hn => ?sta, fun hn => ?stx, fun hn => ?sty⟩
  all_goals
    obtain ⟨m, ho⟩ := operand_memory (i := i) (by rw [hn]; rfl)
    have hstores : onlyStores i.mnemonic = true := by rw [hn]; rfl
  case sta => exact stores_of h hstores ho (exec_sta ho s hn) fun _ hu => hu.a
  case stx => exact stores_of h hstores ho (exec_stx ho s hn) fun _ hu => hu.x
  case sty => exact stores_of h hstores ho (exec_sty ho s hn) fun _ hu => hu.y

end Sys2Proof.Machine

/-!
PROOFS. Transfers and the stack instructions (42_transfer_stack.md): transfers and pushes have the shape `impliedInstr`, pulls the
shape `pullInstr`; the registers an instruction takes its value from are still those before it, whatever the bus saw.
-/

namespace Sys2Proof.Machine

/-! ### Transfers -/

/-- Settles O21: five transfers load a register as LDA, LDX and LDY do, TXS writes SP alone. -/
theorem transferResults : Obligations.TransferResults := by
  refine ⟨rfl, rfl, rfl, rfl, rfl, rfl, fun s h => ⟨?tax, ?tay, ?tsx, ?txa, ?tya, ?txs⟩⟩
  case tax => exact runs_of h (exec_eq_meaning .tax s) fun u hu => hu.a ▸ advance_loadX hu 1 u.a
  case tay => exact runs_of h (exec_eq_meaning .tay s) fun u hu => hu.a ▸ advance_loadY hu 1 u.a
  case tsx => exact runs_of h (exec_eq_meaning .tsx s) fun u hu => hu.sp ▸ advance_loadX hu 1 u.sp
  case txa => exact runs_of h (exec_eq_meaning .txa s) fun u hu => hu.x ▸ advance_loadA hu 1 u.x
  case tya => exact runs_of h (exec_eq_meaning .tya s) fun u hu => hu.y ▸ advance_loadA hu 1 u.y
  case txs => exact runs_of h (exec_eq_meaning .txs s) fun u hu => by rw [← hu.x, ← hu.pc]; rfl

/-! ### Pushes -/

/-- `i` pushes `v` and moves on: in two cycles, and nothing changes but the stack byte, SP, PC and what the bus saw. -/
def Pushes (i : Instr) (s : State) (v : Byte) : Prop :=
  ∃ t, exec i s = .next t ∧ t.cycle = s.cycle + 2 ∧
    t = { s with sp := s.sp - 1, pc := s.pc + 1, mem := t.mem, cycle := t.cycle, busLog := t.busLog } ∧
    OnlyCellChanges (stackAddr s.sp) s t ∧ HoldsAt (stackAddr s.sp) v s t

/-- A push at the end of a one-byte instruction, with what the laws of `push` say of the state before the instruction. -/
theorem pushes_of {i : Instr} {s : State} {f : State → Byte} {v : Byte} (h : Harmless s (s.pc + 1))
    (he : exec i s = impliedInstr (fun u => push (f u) u) s) (hf : ∀ u, SameButBus s u → f u = v) : Pushes i s v := by
  obtain ⟨u, hu, hcycle, hx⟩ := impliedInstr_ok h fun u => push (f u) u
  obtain ⟨-, -, hpush, honly, hholds⟩ := pushStoresAndDecrements v u
  rw [hf u hu] at hx
  rw [hu.sp] at honly hholds
  refine ⟨_, he.trans hx, ?cycle, ?frame, fun b hb => (honly b hb).trans (hu.byteAt b),
    fun hwf hw => hholds (hu.mem ▸ hwf) ((hu.isWritable _).trans hw)⟩
  case cycle => rw [hpush]; exact congrArg (· + 1) hcycle
  case frame => rw [hpush, hu]; rfl

/-- Settles O22: the byte pushed is that of the registers before the instruction. -/
theorem pushInstructionResults : Obligations.PushInstructionResults := by
  rintro i v s h (⟨rfl, rfl⟩ | ⟨rfl, rfl⟩)
  · exact pushes_of h (exec_eq_meaning .pha s) fun u hu => hu.a
  · exact pushes_of h (exec_eq_meaning .php s) fun u hu => congrArg (statusByte true) hu.p

/-! ### Pulls -/

/-- Of the two discarded reads of a pull the second is in page $01, so only the first can stop it. -/
theorem pullInstr_ok {s : State} (h : Harmless s (s.pc + 1)) (f : State → State) :
    ∃ u, SameButBus s u ∧ u.cycle = s.cycle + 2 ∧ pullInstr f s = .ok (f u) := by
  obtain ⟨u1, hread1, h1, hcycle1⟩ := dummyRead_ok h
  obtain ⟨u2, hread2, h2, hcycle2⟩ := dummyRead_ok (harmless_ram (s := u1) (stackAddr_ram s.sp))
  refine ⟨u2, h1.trans h2, by rw [hcycle2, hcycle1], ?_⟩
  simp only [pullInstr, hread1, hread2, bind, Except.bind, pure, Except.pure]

/-- An instruction that pulls a byte and does `f` with it: the byte is that of the stack before the instruction. -/
theorem runs_of_pull {i : Instr} {s : State} {f : Byte → State → State} {g : State → State} (h : Harmless s (s.pc + 1))
    (he : exec i s = finish ((pullInstr (fun u => f (pull u).1 (pull u).2) s).bind fun t => .ok (advance 1 t)))
    (hg : ∀ u, SameButBus s u → advance 1 (f (byteAt s (stackAddr (s.sp + 1))) { u with sp := s.sp + 1 }) = g u) :
    Runs i s 3 g := by
  obtain ⟨u, hu, hcycle, hx⟩ := pullInstr_ok h fun u => f (pull u).1 (pull u).2
  have htick : SameButBus s (tick u) := hu.trans (sameButBus_tick u)
  refine ⟨tick u, htick, by rw [tick_cycle, hcycle], ?_⟩
  rw [he, hx, pull_spec, hu.sp, hu.byteAt, ← hg (tick u) htick]
  rfl

/-- Settles O23: PLA loads A as LDA does, PLP sets the six flags. -/
theorem pullInstructionResults : Obligations.PullInstructionResults := by
  intro s h
  refine ⟨runs_of_pull h (exec_eq_meaning .pla s) fun u hu => ?pla, runs_of_pull h (exec_eq_meaning .plp s) fun u hu => ?plp⟩
  case pla => rw [← hu.p, ← hu.pc]; rfl
  case plp => rw [← hu.pc]; rfl

end Sys2Proof.Machine

/-!
PROOFS. ADC and SBC (43_arithmetic.md): both are the one adder, so its sum, its carry and its V are said once, and the
complement of the operand turns them into those of the difference with borrow.
-/

namespace Sys2Proof.Machine

/-! ### The sign bit and the complement of a byte -/

theorem and_signBit_ne_zero (b : Byte) : (b &&& 0x80 != 0) = b.getLsbD 7 := by
  have hbit : b &&& 0x80 = if b.getLsbD 7 = true then 0x80 else 0 := BitVec.and_twoPow b 7
  rw [hbit]
  cases b.getLsbD 7 <;> rfl

theorem signBit_eq_decide (b : Byte) : b.getLsbD 7 = decide (128 ≤ b.toNat) :=
  (BitVec.msb_eq_getLsbD_last b).symm.trans (BitVec.msb_eq_decide b)

theorem xor_0xFF_eq_not (m : Byte) : m ^^^ 0xFF = ~~~m := BitVec.xor_allOnes

theorem toNat_xor_0xFF (m : Byte) : (m ^^^ 0xFF).toNat = 255 - m.toNat := by
  rw [xor_0xFF_eq_not, BitVec.toNat_not]

theorem signBit_xor_0xFF (m : Byte) : (m ^^^ 0xFF).getLsbD 7 = !m.getLsbD 7 := by
  rw [xor_0xFF_eq_not, BitVec.getLsbD_not]; rfl

/-- The complement is `-1 - m` as a two's-complement number. -/
theorem toInt_xor_0xFF (m : Byte) : (m ^^^ 0xFF).toInt = -1 - m.toInt := by
  have hm := m.isLt
  simp only [BitVec.toInt_eq_toNat_cond, toNat_xor_0xFF]
  omega

/-! ### The adder -/

/-- The mask with $80 of R135 compares signs: those of the addends are equal, that of the result differs. -/
theorem overflowMask_eq_signs (a m r : Byte) : ((a ^^^ r) &&& (m ^^^ r) &&& 0x80 != 0) =
    ((a.getLsbD 7 == m.getLsbD 7) && (r.getLsbD 7 != a.getLsbD 7)) := by
  rw [and_signBit_ne_zero, BitVec.getLsbD_and, BitVec.getLsbD_xor, BitVec.getLsbD_xor]
  cases a.getLsbD 7 <;> cases m.getLsbD 7 <;> cases r.getLsbD 7 <;> rfl

/-- The adder in full, with V as a comparison of signs. -/
theorem addWithCarry_eq (m : Byte) (s : State) : addWithCarry m s =
    let sum := s.a.toNat + m.toNat + s.p.c.toNat
    let r := BitVec.ofNat 8 sum
    { s with
      a := r
      p := { s.p with
        n := r.getLsbD 7, z := r == 0, c := decide (256 ≤ sum)
        v := (s.a.getLsbD 7 == m.getLsbD 7) && (r.getLsbD 7 != s.a.getLsbD 7) } } := by
  simp only [← overflowMask_eq_signs]; rfl

/-- Signs disagree as R135 says exactly when the sum of the two's-complement numbers leaves the range of a byte. -/
theorem signs_overflow_iff (a m : Byte) (c : Bool) :
    ((a.getLsbD 7 == m.getLsbD 7) &&
      ((BitVec.ofNat 8 (a.toNat + m.toNat + c.toNat)).getLsbD 7 != a.getLsbD 7)) = true ↔
    a.toInt + m.toInt + c.toNat < -128 ∨ 127 < a.toInt + m.toInt + c.toNat := by
  have ha := a.isLt
  have hm := m.isLt
  have hc := c.toNat_le
  simp only [signBit_eq_decide, BitVec.toInt_eq_toNat_cond, BitVec.toNat_ofNat, Bool.and_eq_true, beq_iff_eq, bne_iff_ne,
    ne_eq, decide_eq_decide]
  omega

theorem addWithCarry_v_iff (m : Byte) (s : State) : (addWithCarry m s).p.v = true ↔
    s.a.toInt + m.toInt + s.p.c.toNat < -128 ∨ 127 < s.a.toInt + m.toInt + s.p.c.toNat := by
  rw [addWithCarry_eq]; exact signs_overflow_iff s.a m s.p.c

/-! ### The adder on the complement -/

theorem toNat_not_flag (c : Bool) : (!c).toNat = 1 - c.toNat := by
  cases c <;> rfl

/-- Adding `255 - m` and C is subtracting `m` and the inverted C, modulo 256. -/
theorem ofNat_add_complement (a m : Byte) (c : Bool) :
    BitVec.ofNat 8 (a.toNat + (m ^^^ 0xFF).toNat + c.toNat) = a - m - BitVec.ofNat 8 (!c).toNat := by
  have hm := m.isLt
  have hc := c.toNat_le
  rw [toNat_xor_0xFF, toNat_not_flag]
  bv_omega

/-- The sum with the complement carries exactly when the difference needs no borrow. -/
theorem carry_add_complement (a m : Byte) (c : Bool) :
    decide (256 ≤ a.toNat + (m ^^^ 0xFF).toNat + c.toNat) = decide (m.toNat + (!c).toNat ≤ a.toNat) := by
  have hm := m.isLt
  have hc := c.toNat_le
  rw [toNat_xor_0xFF, toNat_not_flag, decide_eq_decide]
  omega

theorem signs_complement (x y z : Bool) : ((x == !y) && (z != x)) = ((x != y) && (z == y)) := by
  cases x <;> cases y <;> cases z <;> rfl

/-- SBC's use of the adder in full: the difference with borrow. -/
theorem addWithCarry_complement_eq (m : Byte) (s : State) : addWithCarry (m ^^^ 0xFF) s =
    let r := s.a - m - BitVec.ofNat 8 (!s.p.c).toNat
    { s with
      a := r
      p := { s.p with
        n := r.getLsbD 7, z := r == 0, c := decide (m.toNat + (!s.p.c).toNat ≤ s.a.toNat)
        v := (s.a.getLsbD 7 != m.getLsbD 7) && (r.getLsbD 7 == m.getLsbD 7) } } := by
  simp only [addWithCarry_eq, ofNat_add_complement, carry_add_complement, signBit_xor_0xFF, signs_complement]

/-- Settles O26: the complement is `-1 - m`, so the sum with it and C is the difference with the inverted C. -/
theorem overflowIsSigned : Obligations.OverflowIsSigned := by
  intro m s
  have hdiff : s.a.toInt + (m ^^^ 0xFF).toInt + s.p.c.toNat = s.a.toInt - m.toInt - (!s.p.c).toNat := by
    have hc := s.p.c.toNat_le
    rw [toInt_xor_0xFF, toNat_not_flag]
    omega
  exact ⟨addWithCarry_v_iff m s, hdiff ▸ addWithCarry_v_iff (m ^^^ 0xFF) s⟩

/-! ### The instructions -/

section
variable {i : Instr} {m : MemOperand} (ho : i.operand = .memory m) (s : State)
include ho

theorem exec_adc (hn : i.mnemonic = .adc) : exec i s = readInstr m addWithCarry s := by
  rw [exec_eq_meaning, meaning, hn, ho]; rfl

theorem exec_sbc (hn : i.mnemonic = .sbc) : exec i s = readInstr m (fun v u => addWithCarry (v ^^^ 0xFF) u) s := by
  rw [exec_eq_meaning, meaning, hn, ho]; rfl

end

/-- Settles O24: ADC reads its operand byte and adds it to the A and C from before the instruction. -/
theorem adcResult : Obligations.AdcResult := by
  intro i s hn h
  obtain ⟨m, ho⟩ := operand_memory (i := i) (by rw [hn]; rfl)
  refine (readsThen_of h (by rw [hn]; rfl) ho (exec_adc ho s hn)).congr fun v u hu => ?_
  rw [addWithCarry_eq, ← hu.a, ← hu.p, ← hu.pc]; rfl

/-- Settles O25: SBC hands the complement of its operand byte to the adder. -/
theorem sbcResult : Obligations.SbcResult := by
  intro i s hn h
  obtain ⟨m, ho⟩ := operand_memory (i := i) (by rw [hn]; rfl)
  refine (readsThen_of h (by rw [hn]; rfl) ho (exec_sbc ho s hn)).congr fun v u hu => ?_
  rw [addWithCarry_complement_eq, ← hu.a, ← hu.p, ← hu.pc]; rfl

end Sys2Proof.Machine

/-!
PROOFS. INC and DEC (44_inc_dec.md): on memory both have the shape `modifyInstr`, on a register the shape `impliedInstr`; N and Z
are set from the result as `setNZ` does, and it touches nothing else.
-/

namespace Sys2Proof.Machine

/-! ### On memory -/

section
variable {i : Instr} {m : MemOperand} (ho : i.operand = .memory m) (s : State)
include ho

theorem exec_inc (hn : i.mnemonic = .inc) : exec i s = modifyInstr m (fun _ v => v + 1) (fun _ r u => setNZ r u) s := by
  rw [exec_eq_meaning, meaning, hn, ho]; rfl

theorem exec_dec (hn : i.mnemonic = .dec) : exec i s = modifyInstr m (fun _ v => v - 1) (fun _ r u => setNZ r u) s := by
  rw [exec_eq_meaning, meaning, hn, ho]; rfl

end

/-- After a store the registers and the flags are still those before the instruction, so N and Z may be set there. -/
theorem setNZ_of_sameButStore {s u : State} (hu : SameButStore s u) (r : Byte) : setNZ r u =
    { s with
      p := { s.p with n := r.getLsbD 7, z := r == 0 }
      pc := u.pc, mem := u.mem, dmaStall := u.dmaStall, cycle := u.cycle, busLog := u.busLog } := by
  rw [hu]; rfl

/-- Settles O27: neither result depends on the state at the second write, and N and Z are set after it. -/
theorem incDecMemoryResults : Obligations.IncDecMemoryResults := by
  intro i s h
  refine ⟨fun hn => ?inc, fun hn => ?dec⟩
  all_goals
    obtain ⟨m, ho⟩ := operand_memory (i := i) (by rw [hn]; rfl)
    have hmodifies : onlyModifies i.mnemonic = true := by rw [hn]; rfl
  case inc => exact modifies_of h hmodifies ho (exec_inc ho s hn) (fun _ _ _ => rfl) fun v _ hu => setNZ_of_sameButStore hu (v + 1)
  case dec => exact modifies_of h hmodifies ho (exec_dec ho s hn) (fun _ _ _ => rfl) fun v _ hu => setNZ_of_sameButStore hu (v - 1)

/-! ### On a register -/

/-- Settles O28: each loads its register as LDX or LDY does, with the register's own value plus or minus 1. -/
theorem incDecRegisterResults : Obligations.IncDecRegisterResults := by
  refine ⟨rfl, rfl, rfl, rfl, fun s h => ⟨?inx, ?iny, ?dex, ?dey⟩⟩
  case inx => exact runs_of h (exec_eq_meaning .inx s) fun u hu => hu.x ▸ advance_loadX hu 1 (u.x + 1)
  case iny => exact runs_of h (exec_eq_meaning .iny s) fun u hu => hu.y ▸ advance_loadY hu 1 (u.y + 1)
  case dex => exact runs_of h (exec_eq_meaning .dex s) fun u hu => hu.x ▸ advance_loadX hu 1 (u.x - 1)
  case dey => exact runs_of h (exec_eq_meaning .dey s) fun u hu => hu.y ▸ advance_loadY hu 1 (u.y - 1)

end Sys2Proof.Machine

/-!
PROOFS. AND, ORA and EOR (45_logical.md): each has the shape `readInstr` and loads A with its old value combined with the operand
byte; the three differ in the operation on bytes alone.
-/

namespace Sys2Proof.Machine

section
variable {i : Instr} {m : MemOperand} (ho : i.operand = .memory m) (s : State)
include ho

theorem exec_and (hn : i.mnemonic = .and) : exec i s = readInstr m (fun v u => loadA (u.a &&& v) u) s := by
  rw [exec_eq_meaning, meaning, hn, ho]; rfl

theorem exec_ora (hn : i.mnemonic = .ora) : exec i s = readInstr m (fun v u => loadA (u.a ||| v) u) s := by
  rw [exec_eq_meaning, meaning, hn, ho]; rfl

theorem exec_eor (hn : i.mnemonic = .eor) : exec i s = readInstr m (fun v u => loadA (u.a ^^^ v) u) s := by
  rw [exec_eq_meaning, meaning, hn, ho]; rfl

end

/-- Reading the operand leaves A alone, so the value loaded may be computed from A before the instruction. -/
theorem advance_loadA_of_a {s u : State} (hu : SameButBus s u) (n : Nat) (r : Byte → Byte) : advance n (loadA (r u.a) u) =
    { u with
      a := r s.a, p := { s.p with n := (r s.a).getLsbD 7, z := r s.a == 0 }
      pc := s.pc + BitVec.ofNat 16 n } := by
  rw [hu.a]; exact advance_loadA hu n (r s.a)

/-- Settles O29: the three are one law, at the operation of each mnemonic. -/
theorem logicalResults : Obligations.LogicalResults := by
  intro i s h
  refine ⟨fun hn => ?and, fun hn => ?ora, fun hn => ?eor⟩
  all_goals obtain ⟨m, ho⟩ := operand_memory (i := i) (by rw [hn]; rfl)
  case and =>
    exact (readsThen_of h (by rw [hn]; rfl) ho (exec_and ho s hn)).congr fun v _ hu => advance_loadA_of_a hu i.length (· &&& v)
  case ora =>
    exact (readsThen_of h (by rw [hn]; rfl) ho (exec_ora ho s hn)).congr fun v _ hu => advance_loadA_of_a hu i.length (· ||| v)
  case eor =>
    exact (readsThen_of h (by rw [hn]; rfl) ho (exec_eor ho s hn)).congr fun v _ hu => advance_loadA_of_a hu i.length (· ^^^ v)

end Sys2Proof.Machine

/-!
PROOFS. ASL, LSR, ROL and ROR (46_shift_rotate.md): the model shifts bits, the rules speak of doubling and halving, so each of the
four results is said once as arithmetic; C, N and Z are set by `setC` and `setNZ`, which touch nothing else.
-/

namespace Sys2Proof.Machine

/-! ### The results as arithmetic -/

theorem shiftLeft_eq_double (v : Byte) : shiftLeft v = BitVec.ofNat 8 (v.toNat * 2) := by
  apply BitVec.eq_of_toNat_eq
  rw [shiftLeft, BitVec.toNat_shiftLeft, Nat.shiftLeft_eq, BitVec.toNat_ofNat, pow_one]

theorem shiftRight_eq_half (v : Byte) : shiftRight v = BitVec.ofNat 8 (v.toNat / 2) := by
  have hv := v.isLt
  apply BitVec.eq_of_toNat_eq
  rw [shiftRight, BitVec.toNat_ushiftRight, Nat.shiftRight_eq_div_pow, BitVec.toNat_ofNat]
  omega

/-- What a rotate left shifts in. -/
theorem lowCarry_eq (c : Bool) : (BitVec.ofBool c).setWidth 8 = BitVec.ofNat 8 c.toNat := by
  cases c <;> rfl

/-- What a rotate right shifts in. -/
theorem highCarry_eq (c : Bool) : (BitVec.ofBool c).setWidth 8 <<< 7 = BitVec.ofNat 8 (c.toNat * 128) := by
  cases c <;> rfl

/-- Doubling leaves bit 0 free, so the `|||` of the model adds the carry there. -/
theorem rotateLeft_eq_double_add (c : Bool) (v : Byte) : rotateLeft c v = BitVec.ofNat 8 (v.toNat * 2 + c.toNat) := by
  have hfree : shiftLeft v &&& BitVec.ofNat 8 c.toNat = 0 := by
    cases c
    · exact BitVec.and_zero
    · refine (BitVec.and_one_eq_setWidth_ofBool_getLsbD).trans ?_
      simp [shiftLeft]
  calc rotateLeft c v = shiftLeft v ||| BitVec.ofNat 8 c.toNat := by rw [← lowCarry_eq]; rfl
    _ = shiftLeft v + BitVec.ofNat 8 c.toNat := (BitVec.add_eq_or_of_and_eq_zero _ _ hfree).symm
    _ = BitVec.ofNat 8 (v.toNat * 2 + c.toNat) := by rw [shiftLeft_eq_double, BitVec.ofNat_add]

/-- Halving leaves bit 7 free, so the `|||` of the model adds the carry there. -/
theorem rotateRight_eq_half_add (c : Bool) (v : Byte) :
    rotateRight c v = BitVec.ofNat 8 (v.toNat / 2 + c.toNat * 128) := by
  have hfree : shiftRight v &&& BitVec.ofNat 8 (c.toNat * 128) = 0 := by
    cases c
    · exact BitVec.and_zero
    · refine (BitVec.and_twoPow (shiftRight v) 7).trans ?_
      simp [shiftRight]
  calc rotateRight c v = shiftRight v ||| BitVec.ofNat 8 (c.toNat * 128) := by rw [← highCarry_eq]; rfl
    _ = shiftRight v + BitVec.ofNat 8 (c.toNat * 128) := (BitVec.add_eq_or_of_and_eq_zero _ _ hfree).symm
    _ = BitVec.ofNat 8 (v.toNat / 2 + c.toNat * 128) := by rw [shiftRight_eq_half, BitVec.ofNat_add]

/-- N of LSR: half a byte is below 128. -/
theorem signBit_half (v : Byte) : (BitVec.ofNat 8 (v.toNat / 2)).getLsbD 7 = false := by
  have hv := v.isLt
  rw [signBit_eq_decide, BitVec.toNat_ofNat, decide_eq_false_iff_not]
  omega

/-- N of ROR is the carry shifted in. -/
theorem signBit_half_add (c : Bool) (v : Byte) : (BitVec.ofNat 8 (v.toNat / 2 + c.toNat * 128)).getLsbD 7 = c := by
  have hv := v.isLt
  rw [signBit_eq_decide, BitVec.toNat_ofNat]
  cases c
  · rw [Bool.toNat_false, decide_eq_false_iff_not]; omega
  · rw [Bool.toNat_true, decide_eq_true_iff]; omega

/-! ### On A -/

/-- The dummy read leaves A and C alone, so the bit shifted out and the result may be computed from those before the
instruction. -/
theorem advance_shiftA {s u : State} (hu : SameButBus s u) (out : Byte → Bool) (result : Bool → Byte → Byte) :
    advance 1 (setNZ (result u.p.c u.a) (setC (out u.a) { u with a := result u.p.c u.a })) =
    { u with
      a := result s.p.c s.a
      p := { s.p with n := (result s.p.c s.a).getLsbD 7, z := result s.p.c s.a == 0, c := out s.a }
      pc := s.pc + 1 } := by
  rw [← hu.a, ← hu.p, ← hu.pc]; rfl

/-- Settles O30: the four are one law, at the bit shifted out and the result of each. -/
theorem shiftAccumulatorResults : Obligations.ShiftAccumulatorResults := by
  intro s h
  refine ⟨runs_of h (exec_eq_meaning .aslAcc s) fun u hu => ?asl, runs_of h (exec_eq_meaning .lsrAcc s) fun u hu => ?lsr,
    runs_of h (exec_eq_meaning .rolAcc s) fun u hu => ?rol, runs_of h (exec_eq_meaning .rorAcc s) fun u hu => ?ror⟩
  case asl =>
    refine (advance_shiftA hu (·.getLsbD 7) fun _ => shiftLeft).trans ?_
    rw [shiftLeft_eq_double]
  case lsr =>
    refine (advance_shiftA hu (·.getLsbD 0) fun _ => shiftRight).trans ?_
    rw [shiftRight_eq_half, signBit_half]
  case rol =>
    refine (advance_shiftA hu (·.getLsbD 7) rotateLeft).trans ?_
    rw [rotateLeft_eq_double_add]
  case ror =>
    refine (advance_shiftA hu (·.getLsbD 0) rotateRight).trans ?_
    rw [rotateRight_eq_half_add, signBit_half_add]

/-! ### On memory -/

section
variable {i : Instr} {m : MemOperand} (ho : i.operand = .memory m) (s : State)
include ho

theorem exec_asl (hn : i.mnemonic = .asl) : exec i s = modifyInstr m (fun _ v => shiftLeft v) leftFlags s := by
  rw [exec_eq_meaning, meaning, hn, ho]; rfl

theorem exec_lsr (hn : i.mnemonic = .lsr) : exec i s = modifyInstr m (fun _ v => shiftRight v) rightFlags s := by
  rw [exec_eq_meaning, meaning, hn, ho]; rfl

theorem exec_rol (hn : i.mnemonic = .rol) : exec i s = modifyInstr m (fun u v => rotateLeft u.p.c v) leftFlags s := by
  rw [exec_eq_meaning, meaning, hn, ho]; rfl

theorem exec_ror (hn : i.mnemonic = .ror) : exec i s = modifyInstr m (fun u v => rotateRight u.p.c v) rightFlags s := by
  rw [exec_eq_meaning, meaning, hn, ho]; rfl

end

/-- After a store the flags are still those before the instruction, so C, N and Z may be set there. -/
theorem setNZ_setC_of_sameButStore {s u : State} (hu : SameButStore s u) (c : Bool) (r : Byte) : setNZ r (setC c u) =
    { s with
      p := { s.p with n := r.getLsbD 7, z := r == 0, c := c }
      pc := u.pc, mem := u.mem, dmaStall := u.dmaStall, cycle := u.cycle, busLog := u.busLog } := by
  rw [hu]; rfl

/-- Settles O31: a rotate takes the C from before the instruction, since the write of the old byte keeps the flags; C, N and Z are
set after the second write. -/
theorem shiftMemoryResults : Obligations.ShiftMemoryResults := by
  intro i s m ho h
  refine ⟨fun hn => ?asl, fun hn => ?lsr, fun hn => ?rol, fun hn => ?ror⟩
  all_goals have hmodifies : onlyModifies i.mnemonic = true := by rw [hn]; rfl
  case asl =>
    exact modifies_of h hmodifies ho (exec_asl ho s hn) (fun _ v _ => shiftLeft_eq_double v)
      fun v _ hu => setNZ_setC_of_sameButStore hu (v.getLsbD 7) _
  case lsr =>
    refine modifies_of h hmodifies ho (exec_lsr ho s hn) (fun _ v _ => shiftRight_eq_half v) fun v _ hu => ?_
    exact (setNZ_setC_of_sameButStore hu (v.getLsbD 0) _).trans (by rw [signBit_half])
  case rol =>
    exact modifies_of h hmodifies ho (exec_rol ho s hn) (fun _ v hp => hp ▸ rotateLeft_eq_double_add _ v)
      fun v _ hu => setNZ_setC_of_sameButStore hu (v.getLsbD 7) _
  case ror =>
    refine modifies_of h hmodifies ho (exec_ror ho s hn) (fun _ v hp => hp ▸ rotateRight_eq_half_add _ v) fun v _ hu => ?_
    exact (setNZ_setC_of_sameButStore hu (v.getLsbD 0) _).trans (by rw [signBit_half_add])

end Sys2Proof.Machine

/-!
PROOFS. The table of cycle counts (30_encoding.md R85, 70_reset_and_hazards.md R281), compared once with the shapes of its rows.
-/

namespace Sys2Proof.Machine

/-- The mnemonics that read their operand byte and write no byte. -/
def onlyReads : Mnemonic → Bool
  | .lda | .ldx | .ldy | .adc | .sbc | .and | .ora | .eor | .cmp | .cpx | .cpy | .bit | .lax | .anc | .alr | .arr | .axs => true
  | _ => false

/-- The Cycles column without its stars (30_encoding.md R85). -/
def plainCycles (i : Instr) : Nat := (cycleMatrix.getD (i.opcode.toNat / 16) []).getD (i.opcode.toNat % 16) 0

theorem cyclesOf_eq (i : Instr) (s : State) : cyclesOf i s = plainCycles i + extraCycles i s := rfl

/-- The cycles of reading an operand byte where no page is crossed. -/
def plainOperandCycles : MemOperand → Nat
  | .imm _ => 0
  | .zp _ | .abs _ => 1
  | .zpX _ | .zpY _ => 2
  | .absX _ | .absY _ => 1
  | .indX _ => 4
  | .indY _ => 3

/-- The cycles of forming an address that is written to: the read of the uncorrected address is always made. -/
def writeAddressCycles : MemOperand → Nat
  | .imm _ | .zp _ | .abs _ => 0
  | .zpX _ | .zpY _ | .absX _ | .absY _ => 1
  | .indX _ | .indY _ => 3

theorem addressCycles_true (m : MemOperand) (s : State) : addressCycles true m s = writeAddressCycles m := by
  cases m <;> rfl

/-- The cycles after the fetch of an instruction without an operand. -/
def impliedCycles : Mnemonic → Nat
  | .pha | .php => 2
  | .pla | .plp => 3
  | .rts | .rti => 5
  | .brk => 6
  | _ => 1

/-- The cycles after the fetch where no page is crossed and no branch taken, by the shape of the row. -/
def rowCycles (n : Mnemonic) : Operand → Nat
  | .memory m =>
    match n with
    | .sta | .stx | .sty | .sax => writeAddressCycles m + 1
    | .inc | .dec | .asl | .lsr | .rol | .ror | .dcp | .isc | .rla | .rra | .slo | .sre => writeAddressCycles m + 3
    | .jmp => 0
    | .jsr => 4
    | _ => plainOperandCycles m
  | .implied | .accumulator => impliedCycles n
  | .relative _ => 0
  | .indirect _ => 2

theorem rowCycles_reads {n : Mnemonic} (h : onlyReads n = true) (m : MemOperand) :
    rowCycles n (.memory m) = plainOperandCycles m := by
  cases n
  case lda | ldx | ldy | adc | sbc | and | ora | eor | cmp | cpx | cpy | bit | lax | anc | alr | arr | axs => rfl
  all_goals cases h

theorem rowCycles_stores {n : Mnemonic} (h : onlyStores n = true) (m : MemOperand) :
    rowCycles n (.memory m) = writeAddressCycles m + 1 := by
  cases n
  case sta | stx | sty | sax => rfl
  all_goals cases h

theorem rowCycles_modifies {n : Mnemonic} (h : onlyModifies n = true) (m : MemOperand) :
    rowCycles n (.memory m) = writeAddressCycles m + 3 := by
  cases n
  case inc | dec | asl | lsr | rol | ror | dcp | isc | rla | rra | slo | sre => rfl
  all_goals cases h

theorem mnemonic_ne_unlisted {i : Instr} (h : i.listed = true) : i.mnemonic ≠ .unlisted := by
  intro hn
  rw [Instr.listed, Instr.status, hn] at h
  cases h

/-- The table without its stars, row by row. -/
theorem plainCycles_eq {i : Instr} (h : i.listed = true) :
    plainCycles i = fetchLength i + rowCycles i.mnemonic i.operand := by
  replace h := mnemonic_ne_unlisted h
  cases i
  all_goals dsimp only [plainCycles, Instr.opcode]
  all_goals first | rfl | exact absurd rfl h

/-- The modes that can cross a page. -/
def canCross : MemOperand → Bool
  | .absX _ | .absY _ | .indY _ => true
  | _ => false

theorem operandCrosses_of_not_canCross {m : MemOperand} (h : canCross m = false) (s : State) :
    operandCrosses m s = false := by
  cases m with
  | absX a | absY a | indY b => cases h
  | _ => rfl

/-- The stars of the table: the rows that read their byte in a mode that can cross a page. -/
theorem starred_eq {i : Instr} {m : MemOperand} (ho : i.operand = .memory m) (hc : canCross m = true) :
    starredOpcodes.contains i.opcode = onlyReads i.mnemonic := by
  cases i
  all_goals cases ho
  all_goals cases hc
  all_goals dsimp only [Instr.opcode, Instr.mnemonic]
  all_goals decide

theorem extraCycles_memory {i : Instr} {m : MemOperand} (ho : i.operand = .memory m) (s : State) :
    extraCycles i s = if onlyReads i.mnemonic && operandCrosses m s then 1 else 0 := by
  rw [extraCycles, ho]
  dsimp only
  cases hc : canCross m
  case false => rw [operandCrosses_of_not_canCross hc, Bool.and_false, Bool.and_false]
  case true => rw [starred_eq ho hc]

theorem not_onlyReads_of_stores {n : Mnemonic} (h : onlyStores n = true) : onlyReads n = false := by
  cases n
  case sta | stx | sty | sax => rfl
  all_goals cases h

theorem not_onlyReads_of_modifies {n : Mnemonic} (h : onlyModifies n = true) : onlyReads n = false := by
  cases n
  case inc | dec | asl | lsr | rol | ror | dcp | isc | rla | rra | slo | sre => rfl
  all_goals cases h

end Sys2Proof.Machine

/-!
PROOFS. CMP, CPX, CPY and BIT (47_compare_bittest.md): each has the shape `readInstr` and writes flags alone; the three compares
differ in the register alone.
-/

namespace Sys2Proof.Machine

section
variable {i : Instr} {m : MemOperand} (ho : i.operand = .memory m) (s : State)
include ho

theorem exec_cmp (hn : i.mnemonic = .cmp) : exec i s = readInstr m (fun v u => compare u.a v u) s := by
  rw [exec_eq_meaning, meaning, hn, ho]; rfl

theorem exec_cpx (hn : i.mnemonic = .cpx) : exec i s = readInstr m (fun v u => compare u.x v u) s := by
  rw [exec_eq_meaning, meaning, hn, ho]; rfl

theorem exec_cpy (hn : i.mnemonic = .cpy) : exec i s = readInstr m (fun v u => compare u.y v u) s := by
  rw [exec_eq_meaning, meaning, hn, ho]; rfl

theorem exec_bit (hn : i.mnemonic = .bit) : exec i s = readInstr m bitTest s := by
  rw [exec_eq_meaning, meaning, hn, ho]; rfl

end

/-- Z of a compare: the difference modulo 256 is zero only between equal bytes. -/
theorem sub_beq_zero (reg m : Byte) : (reg - m == 0) = decide (reg = m) := by
  rw [beq_eq_decide, decide_eq_decide]
  exact sub_eq_zero

/-- The compare in full, with Z as equality. -/
theorem compare_eq (reg m : Byte) (s : State) : compare reg m s = { s with
    p := { s.p with n := (reg - m).getLsbD 7, z := decide (reg = m), c := decide (m.toNat ≤ reg.toNat) } } := by
  rw [← sub_beq_zero]; rfl

/-- Reading the operand leaves the flags and PC alone, so the compare may start from those before the instruction. -/
theorem advance_compare {s u : State} (hu : SameButBus s u) (n : Nat) (reg m : Byte) : advance n (compare reg m u) = { u with
    p := { s.p with n := (reg - m).getLsbD 7, z := decide (reg = m), c := decide (m.toNat ≤ reg.toNat) }
    pc := s.pc + BitVec.ofNat 16 n } := by
  rw [compare_eq, ← hu.p, ← hu.pc]; rfl

/-- Settles O32: the register compared is still the one before the instruction. -/
theorem compareResults : Obligations.CompareResults := by
  rintro i s reg h (⟨hn, rfl⟩ | ⟨hn, rfl⟩ | ⟨hn, rfl⟩)
  all_goals obtain ⟨m, ho⟩ := operand_memory (i := i) (by rw [hn]; rfl)
  · exact (readsThen_of h (by rw [hn]; rfl) ho (exec_cmp ho s hn)).congr fun v u hu => hu.a ▸ advance_compare hu i.length u.a v
  · exact (readsThen_of h (by rw [hn]; rfl) ho (exec_cpx ho s hn)).congr fun v u hu => hu.x ▸ advance_compare hu i.length u.x v
  · exact (readsThen_of h (by rw [hn]; rfl) ho (exec_cpy ho s hn)).congr fun v u hu => hu.y ▸ advance_compare hu i.length u.y v

/-- Settles O33: BIT takes N and V from the operand byte, and Z from A before the instruction. -/
theorem bitTestResult : Obligations.BitTestResult := by
  intro i s hn h
  obtain ⟨m, ho⟩ := operand_memory (i := i) (by rw [hn]; rfl)
  refine (readsThen_of h (by rw [hn]; rfl) ho (exec_bit ho s hn)).congr fun v u hu => ?_
  rw [← beq_eq_decide, ← hu.a, ← hu.p, ← hu.pc]; rfl

end Sys2Proof.Machine

/-!
PROOFS. The dummy accesses of an instruction (70_reset_and_hazards.md R275), in order: where none of them stops it, an instruction
completes; where one is refused, the first such one is the fault. The notion goes through sequences of accesses, so each
instruction's own sequence is gone through once and gives both halves.
-/

namespace Sys2Proof.Machine

/-- The computation `c` makes the dummy accesses `l`: if none of them stops it, it answers a value with `Q`; if the policy refuses
one, the first such one is its fault. -/
structure Gated {α : Type} (s : State) (l : List Addr) (c : Except Fault α) (Q : α → Prop) : Prop where
  completes : (∀ a ∈ l, Harmless s a) → ∃ x, c = .ok x ∧ Q x
  faults : ∀ a, s.cfg.dummyPolicy = .refuseOnDevice → l.find? (hasSideEffects s) = some a →
    c = .error (.deviceDummyAccess a)

/-- The same of the outcome of an instruction. -/
structure GatedResult (s : State) (l : List Addr) (r : Result) (Q : State → Prop) : Prop where
  completes : (∀ a ∈ l, Harmless s a) → ∃ t, r = .next t ∧ Q t
  faults : ∀ a, s.cfg.dummyPolicy = .refuseOnDevice → l.find? (hasSideEffects s) = some a →
    r = .fault (.deviceDummyAccess a)

/-! ### Sequences of accesses -/

section
variable {α β : Type} {s : State} {l l' : List Addr} {c : Except Fault α} {Q : α → Prop}

theorem Gated.ok {x : α} (h : Q x) : Gated s [] (.ok x) Q := ⟨fun _ => ⟨x, rfl, h⟩, nofun⟩

theorem Gated.finish {c : Except Fault State} {Q : State → Prop} (h : Gated s l c Q) : GatedResult s l (finish c) Q where
  completes hl := by
    obtain ⟨x, rfl, hx⟩ := h.completes hl
    exact ⟨x, rfl, hx⟩
  faults a hp ha := by rw [h.faults a hp ha]; rfl

theorem GatedResult.mono {r : Result} {Q R : State → Prop} (h : GatedResult s l r Q) (hQ : ∀ t, Q t → R t) :
    GatedResult s l r R where
  completes hl := by
    obtain ⟨t, ht, hq⟩ := h.completes hl
    exact ⟨t, ht, hQ t hq⟩
  faults := h.faults

theorem GatedResult.next {t : State} {Q : State → Prop} (h : Q t) : GatedResult s [] (.next t) Q :=
  (Gated.ok (s := s) h).finish

theorem harmless_of_cfg {s t : State} (h : t.cfg = s.cfg) {a : Addr} : Harmless t a ↔ Harmless s a := by
  simp only [Harmless, hasSideEffects, kindAt, h]

theorem hasSideEffects_of_cfg {s t : State} (h : t.cfg = s.cfg) : hasSideEffects t = hasSideEffects s := by
  funext a; simp only [hasSideEffects, kindAt, h]

/-- Which accesses stop depends on the platform alone. -/
theorem Gated.of_cfg {t : State} (h : Gated t l c Q) (hcfg : t.cfg = s.cfg) : Gated s l c Q where
  completes hl := h.completes fun a ha => (harmless_of_cfg hcfg).2 (hl a ha)
  faults a hp ha := h.faults a (hcfg ▸ hp) (hasSideEffects_of_cfg hcfg ▸ ha)

theorem GatedResult.of_cfg {t : State} {r : Result} {Q : State → Prop} (h : GatedResult t l r Q) (hcfg : t.cfg = s.cfg) :
    GatedResult s l r Q where
  completes hl := h.completes fun a ha => (harmless_of_cfg hcfg).2 (hl a ha)
  faults a hp ha := h.faults a (hcfg ▸ hp) (hasSideEffects_of_cfg hcfg ▸ ha)

/-- Where the policy refuses none of a list of accesses, none of them stops. -/
theorem harmless_of_find?_eq_none (h : l.find? (hasSideEffects s) = none) : ∀ a ∈ l, Harmless s a := fun a ha =>
  .inr (by simpa using List.find?_eq_none.1 h a ha)

/-- One sequence after another: the accesses of the first come first. -/
theorem Gated.bind {k : α → Except Fault β} {R : β → Prop} (h : Gated s l c Q) (hk : ∀ x, Q x → Gated s l' (k x) R) :
    Gated s (l ++ l') (c.bind k) R where
  completes hl := by
    obtain ⟨hfirst, hsecond⟩ := List.forall_mem_append.1 hl
    obtain ⟨x, rfl, hx⟩ := h.completes hfirst
    exact (hk x hx).completes hsecond
  faults a hp ha := by
    rw [List.find?_append, Option.or_eq_some_iff] at ha
    rcases ha with ha | ⟨hnone, ha⟩
    · rw [h.faults a hp ha]; rfl
    · obtain ⟨x, rfl, hx⟩ := h.completes (harmless_of_find?_eq_none hnone)
      exact (hk x hx).faults a hp ha

end

/-! ### One access -/

section
variable {s : State} {a : Addr} {v : Byte}

theorem dummyRead_emit (h : s.cfg.dummyPolicy = .emit) : dummyRead a s = .ok (afterRead a s) := by
  simp [dummyRead, h]

theorem dummyWrite_emit (h : s.cfg.dummyPolicy = .emit) : dummyWrite a v s = .ok (write a v s) := by
  simp [dummyWrite, h]

variable (hp : s.cfg.dummyPolicy = .refuseOnDevice)
include hp

theorem dummyRead_refused (h : hasSideEffects s a = true) : dummyRead a s = .error (.deviceDummyAccess a) := by
  simp [dummyRead, hp, h]

theorem dummyWrite_refused (h : hasSideEffects s a = true) (v : Byte) :
    dummyWrite a v s = .error (.deviceDummyAccess a) := by
  simp [dummyWrite, hp, h]

theorem discardedRead_refused (h : hasSideEffects s a = true) : discardedRead a s = .error (.deviceDummyAccess a) := by
  simp [discardedRead, hp, h]

theorem dummyRead_left_out (h : hasSideEffects s a = false) : dummyRead a s = .ok (tick s) := by
  simp [dummyRead, hp, h]

theorem dummyWrite_left_out (h : hasSideEffects s a = false) : dummyWrite a v s = .ok (tick s) := by
  simp [dummyWrite, hp, h]

end

/-- One access is the first refused one of its own list only where it has side effects. -/
theorem find?_singleton_eq_some {α : Type} {p : α → Bool} {a b : α} (h : [a].find? p = some b) : p a = true ∧ a = b := by
  have hmem := List.mem_of_find?_eq_some h
  obtain rfl := List.mem_singleton.1 hmem
  exact ⟨List.find?_some h, rfl⟩

theorem gated_dummyRead (a : Addr) (s : State) :
    Gated s [a] (dummyRead a s) fun t => SameButBus s t ∧ t.cycle = s.cycle + 1 where
  completes h := dummyRead_ok (h a (List.mem_singleton_self a))
  faults b hp hb := by
    obtain ⟨he, rfl⟩ := find?_singleton_eq_some hb
    exact dummyRead_refused hp he

theorem gated_discardedRead (a : Addr) (s : State) : Gated s [a] (discardedRead a s) (· = afterRead a s) where
  completes h := ⟨_, discardedRead_ok (h a (List.mem_singleton_self a)), rfl⟩
  faults b hp hb := by
    obtain ⟨he, rfl⟩ := find?_singleton_eq_some hb
    exact discardedRead_refused hp he

/-- A dummy read, then what follows it in a state that differs by a cycle and in what the bus saw. -/
theorem gated_dummyRead_bind {β : Type} {s : State} {a : Addr} {l : List Addr} {k : State → Except Fault β} {R : β → Prop}
    (hk : ∀ t, SameButBus s t → t.cycle = s.cycle + 1 → Gated t l (k t) R) :
    Gated s (a :: l) ((dummyRead a s).bind k) R :=
  (gated_dummyRead a s).bind fun t ⟨ht, hcycle⟩ => (hk t ht hcycle).of_cfg ht.cfg

end Sys2Proof.Machine

/-!
PROOFS. Branches, jumps, calls and returns (48_branch_jump.md): the sequence of accesses of each is gone through once, with the dummy
accesses that can stop it.
-/

namespace Sys2Proof.Machine

/-! ### Branches -/

/-- The dummy accesses of a branch: those of a taken one only (70_reset_and_hazards.md R275). -/
def branchDummies (cond : Bool) (offset : Byte) (s : State) : List Addr :=
  let next := s.pc + 2
  let target := branchTarget s.pc offset
  if cond then next :: (if hi target != hi next then [join (hi next) (lo target)] else []) else []

/-- The cycles of a branch after its fetch (70_reset_and_hazards.md R281). -/
def branchCycles (cond : Bool) (offset : Byte) (s : State) : Nat :=
  if cond then (if hi (branchTarget s.pc offset) != hi (s.pc + 2) then 2 else 1) else 0

/-- A branch moves PC, and nothing else changes but what the bus saw. -/
theorem gated_branch (cond : Bool) (offset : Byte) (s : State) :
    GatedResult s (branchDummies cond offset s) (branch cond offset s) fun t =>
      t = { s with
        pc := if cond then branchTarget s.pc offset else s.pc + 2, cycle := t.cycle, busLog := t.busLog } ∧
      t.cycle = s.cycle + branchCycles cond offset s := by
  cases cond with
  | false => exact .next ⟨rfl, rfl⟩
  | true =>
    refine (gated_dummyRead_bind fun u hu hcycle => ?_).finish
    by_cases hx : hi (branchTarget s.pc offset) != hi (s.pc + 2)
    · rw [if_pos hx, if_pos hx]
      refine gated_dummyRead_bind fun w hw hcycle' => .ok ⟨?_, ?_⟩
      · rw [hu.trans hw]; rfl
      · simp only [branchCycles, hx, if_true, hcycle', hcycle]
    · rw [if_neg hx, if_neg hx]
      refine .ok ⟨?_, ?_⟩
      · rw [hu]; rfl
      · simp only [branchCycles, hx, if_true, hcycle]; rfl

/-- The target as a signed offset from the address after the branch, modulo 65536 (48_branch_jump.md R165). -/
theorem branchTarget_toNat (pc : Addr) (offset : Byte) :
    ((branchTarget pc offset).toNat : Int) = (pc.toNat + 2 + offset.toInt) % 65536 := by
  have htwo : (2 : Addr).toNat = 2 := rfl
  have hsext : (sext offset).toInt = offset.toInt := BitVec.toInt_signExtend_of_le (by decide)
  rw [BitVec.toInt_eq_toNat_cond] at hsext
  rw [branchTarget, BitVec.toNat_add, BitVec.toNat_add, htwo]
  split at hsext <;> omega

/-- The condition of each branch (48_branch_jump.md R166 to R173). -/
theorem branchCondition_eq (p : Flags) :
    branchCondition .bpl p = !p.n ∧ branchCondition .bmi p = p.n ∧ branchCondition .bvc p = !p.v ∧
    branchCondition .bvs p = p.v ∧ branchCondition .bcc p = !p.c ∧ branchCondition .bcs p = p.c ∧
    branchCondition .bne p = !p.z ∧ branchCondition .beq p = p.z := by
  obtain ⟨n, v, d, i, z, c⟩ := p
  revert n v d i z c
  decide

section
variable {i : Instr} {b : Byte} (ho : i.operand = .relative b) (s : State)
include ho

/-- The dummy accesses of a branch instruction are those of its condition. -/
theorem dummyAddresses_relative : dummyAddresses i s = branchDummies (branchCondition i.mnemonic s.p) b s := by
  rw [dummyAddresses, ho]; rfl

/-- A branch instruction is the common branch at its own condition. -/
theorem exec_relative : exec i s = branch (branchCondition i.mnemonic s.p) b s := by
  cases i <;> cases ho
  all_goals
    dsimp only [Instr.mnemonic]
    simp only [branchCondition_eq]
    rfl

end

/-- Settles O34: every branch instruction is the common branch, at the condition of its mnemonic. -/
theorem branchResults : Obligations.BranchResults := by
  intro i s b taken h hcases
  obtain ⟨ho, rfl⟩ : i.operand = .relative b ∧ taken = branchCondition i.mnemonic s.p := by
    rcases hcases with ⟨rfl, rfl⟩ | ⟨rfl, rfl⟩ | ⟨rfl, rfl⟩ | ⟨rfl, rfl⟩ | ⟨rfl, rfl⟩ | ⟨rfl, rfl⟩ |
      ⟨rfl, rfl⟩ | ⟨rfl, rfl⟩
    all_goals exact ⟨rfl, by dsimp only [Instr.mnemonic]; simp only [branchCondition_eq]⟩
  rw [NoDummyStops, dummyAddresses_relative ho] at h
  obtain ⟨t, ht, hframe, -⟩ := (gated_branch (branchCondition i.mnemonic s.p) b s).completes h
  refine ⟨t, (exec_relative ho s).trans ht, by rw [hframe], fun htaken => ?_, fun htaken => ?_⟩
  · rw [hframe, htaken]; exact branchTarget_toNat s.pc b
  · rw [hframe, htaken]; rfl

/-! ### Jumps -/

/-- Settles O35: JMP Indirect reads its two bytes from one page. -/
theorem jumpResults : Obligations.JumpResults := by
  intro s a
  refine ⟨rfl, (read16Page a s).2, (readPair_sameButBus ..).1, rfl, fun hlow hhigh => ?_⟩
  rw [read16Page, samePage, readPair_memory hlow hhigh]

/-! ### The stack of a call and of a return -/

theorem afterRead_memory {a : Addr} {s : State} (h : isDevice s a = false) : afterRead a s = tick s := by
  simp only [afterRead, h]
  rfl

/-- A dummy read of RAM is a cycle. -/
theorem dummyRead_ram {a : Addr} (h : a.toNat < 0x2000) (s : State) : dummyRead a s = .ok (tick s) := by
  simp only [dummyRead, ram_noEffects h, afterRead_memory (ram_isDevice h)]
  split <;> rfl

theorem readValue_device {a : Addr} {s : State} (h : isDevice s a = true) :
    readValue a s = Config.busRead s.busLog s.cycle (physical a) := by
  simp [readValue, h]

/-- The state in which JSR reads its last byte: the return address lies on the stack, and three cycles have passed. -/
def jsrPushed (s : State) : State := pushAddr (s.pc + 2) (tick s)

theorem opJsr_eq (target : Addr) (s : State) : opJsr target s = .next { afterRead (s.pc + 2) (jsrPushed s) with
    pc := join (readValue (s.pc + 2) (jsrPushed s)) (lo target) } := by
  unfold opJsr
  rw [dummyRead_ram (stackAddr_ram _)]
  rfl

/-- Settles O36: JSR's last read comes after the pushes, so it sees what they left. -/
theorem jsrResult : Obligations.JsrResult := by
  intro s a
  obtain ⟨m, hpush, hframe, hbytes⟩ := pushAddr_spec (s.pc + 2) (tick s)
  have hpushed : jsrPushed s = { s with mem := m, sp := s.sp - 2, cycle := s.cycle + 3 } := hpush
  have hdev : isDevice (jsrPushed s) (s.pc + 2) = isDevice s (s.pc + 2) := by rw [hpushed]; rfl
  have hother : ∀ c, cell c ≠ cell (stackAddr s.sp) → cell c ≠ cell (stackAddr (s.sp - 1)) →
      m.read (cell c) = byteAt s c := by
    intro c h1 h2
    rw [cell_stackAddr] at h1 h2
    exact hframe _ h1 h2
  have hmem : isDevice s (s.pc + 2) = false → readValue (s.pc + 2) (jsrPushed s) = m.read (cell (s.pc + 2)) := fun hd => by
    rw [readValue_memory (hdev.trans hd), hpushed]; rfl
  have hlog : (afterRead (s.pc + 2) (jsrPushed s)).busLog =
      if isDevice s (s.pc + 2) then .read (physical (s.pc + 2)) :: s.busLog else s.busLog := by
    rw [afterRead_busLog, hdev, hpushed]
  refine ⟨_, opJsr_eq a s, ?cycle, ?frame, ?otherBytes, fun hwf => ?stack, lo_join _ _, fun hd => ⟨?memoryByte, ?noRead⟩,
    fun hd => ⟨?deviceByte, ?oneRead⟩, fun hd hb h1 h2 => ?operand⟩
  case cycle => rw [hpushed]; rfl
  case frame => rw [hpushed]; rfl
  case otherBytes => rw [hpushed]; exact hother
  case stack =>
    obtain ⟨-, hhigh, hlow⟩ := hbytes hwf
    rw [hpushed]
    simp only [byteAt, cell_stackAddr]
    exact ⟨hhigh, hlow⟩
  case memoryByte =>
    refine (hi_join _ _).trans ((hmem hd).trans ?_)
    rw [hpushed]; rfl
  case noRead => exact hlog.trans (by rw [hd]; rfl)
  case deviceByte =>
    refine (hi_join _ _).trans ?_
    rw [readValue_device (hdev.trans hd), hpushed]
  case oneRead => exact hlog.trans (if_pos hd)
  case operand =>
    show join (readValue _ _) _ = _
    rw [hmem hd, hother _ h1 h2, hb, join_hi_lo]

/-- RTS: its three dummy reads, and the return address from the stack. -/
theorem gated_opRts (s : State) : GatedResult s (dummyAddresses .rts s) (opRts s) fun t => ∃ s1, SameButBus s s1 ∧
    s1.cycle = s.cycle + 5 ∧ t = { s1 with
      sp := s.sp + 2
      pc := join (byteAt s (stackAddr (s.sp + 2))) (byteAt s (stackAddr (s.sp + 1))) + 1 } := by
  refine (gated_dummyRead_bind fun u hu hcycle => ?_).finish
  refine gated_dummyRead_bind fun w hw hcycle' => ?_
  have hbus := hu.trans hw
  simp only [pullAddr_spec, hbus.sp, hbus.byteAt]
  refine (gated_dummyRead_bind (s := { w with sp := s.sp + 2, cycle := w.cycle + 2 }) fun v hv hcycle'' => .ok ?_).of_cfg rfl
  refine ⟨{ v with sp := s.sp }, ?_, ?_, ?_⟩
  · rw [hv, hbus]; rfl
  · simp only [hcycle'', hcycle', hcycle]
  · rw [hv]

/-- Settles O37. -/
theorem rtsResult : Obligations.RtsResult := by
  intro s h
  obtain ⟨t, ht, s1, hbus, hcycle, rfl⟩ := (gated_opRts s).completes h
  exact ⟨s1, hbus, hcycle, ht⟩

/-- RTI: of its two dummy reads the second is in page $01. -/
theorem gated_opRti (s : State) : GatedResult s (dummyAddresses .rti s) (opRti s) fun t => ∃ s1, SameButBus s s1 ∧
    s1.cycle = s.cycle + 5 ∧ t = { s1 with
      p := flagsOfByte (byteAt s (stackAddr (s.sp + 1)))
      sp := s.sp + 3
      pc := join (byteAt s (stackAddr (s.sp + 3))) (byteAt s (stackAddr (s.sp + 2))) } := by
  refine (gated_dummyRead_bind fun u hu hcycle => ?_).finish
  refine gated_dummyRead_bind fun w hw hcycle' => .ok ?_
  have hbus := hu.trans hw
  rw [returnFromHandler_spec, hbus.sp, hbus.byteAt, hbus.byteAt, hbus.byteAt]
  refine ⟨{ w with cycle := w.cycle + 3 }, hbus.trans rfl, ?_, rfl⟩
  simp only [hcycle', hcycle]

/-- Settles O39. -/
theorem rtiResult : Obligations.RtiResult := by
  intro s h
  have hstops : NoDummyStops .rti s :=
    List.forall_mem_cons.2 ⟨h, List.forall_mem_singleton.2 (harmless_ram (stackAddr_ram s.sp))⟩
  obtain ⟨t, ht, s1, hbus, hcycle, rfl⟩ := (gated_opRti s).completes hstops
  exact ⟨s1, hbus, hcycle, ht⟩

/-! ### A return after its call -/

/-- Settles O38: RTS finds on the stack the address that JSR left there, one below the next instruction. -/
theorem rtsUndoesJsr : Obligations.RtsUndoesJsr := by
  intro s a hwf
  obtain ⟨t, ht, -, hframe, -, hbytes, -⟩ := jsrResult s a
  refine ⟨t, ht, fun hstops => ?_⟩
  obtain ⟨s1, hbus, -, hu⟩ := rtsResult t hstops
  obtain ⟨hhigh, hlow⟩ := hbytes hwf
  have hsp : t.sp = s.sp - 2 := by rw [hframe]
  have hsp1 : s.sp - 2 + 1 = s.sp - 1 := by bv_omega
  have hsp2 : s.sp - 2 + 2 = s.sp := by bv_omega
  have hpc : s.pc + 2 + 1 = s.pc + 3 := by bv_omega
  rw [hsp, hsp1, hsp2, hhigh, hlow, join_hi_lo, hpc] at hu
  refine ⟨_, hu, rfl, ?_⟩
  rw [hbus, hframe]

theorem byteAt_of_mem {s t : State} (h : t.mem = s.mem) (a : Addr) : byteAt t a = byteAt s a := by
  rw [byteAt, h, byteAt]

/-- The vector decides where the handler is, not what the entry leaves on the stack. -/
theorem enterHandler_vector (ret : Addr) (b : Bool) (v w : Addr) (s : State) : enterHandler ret b v s =
    { enterHandler ret b w s with pc := (enterHandler ret b v s).pc, busLog := (enterHandler ret b v s).busLog } := rfl

/-- Settles O40: the handler's RTI pulls the three bytes that the entry pushed, whatever vector was taken. -/
theorem rtiUndoesEntry : Obligations.RtiUndoesEntry := by
  intro s ret vector b hstops hwf
  obtain ⟨⟨hframe, -, hbytes, -⟩, hnmi, -⟩ := enterHandler_spec ret b irqVector s (by decide) (by decide)
  obtain ⟨hhigh, hlow, hstatus⟩ := hbytes hwf
  have hvector := enterHandler_vector ret b vector irqVector s
  obtain ⟨s1, hbus, -, hu⟩ := rtiResult _ (List.forall_mem_cons.1 hstops).1
  have hbyte : ∀ c, byteAt (enterHandler ret b vector s) c = byteAt (enterHandler ret b irqVector s) c := fun c =>
    byteAt_of_mem (by rw [hvector]) c
  have hsp : (enterHandler ret b vector s).sp = s.sp - 3 := by rw [hvector, hframe]
  have hsp1 : s.sp - 3 + 1 = s.sp - 2 := by bv_omega
  have hsp2 : s.sp - 3 + 2 = s.sp - 1 := by bv_omega
  have hsp3 : s.sp - 3 + 3 = s.sp := by bv_omega
  simp only [hsp, hsp1, hsp2, hsp3, hbyte, hhigh, hlow, hstatus, flagsOfByte_statusByte, join_hi_lo] at hu
  refine ⟨_, hu, rfl, ?_⟩
  rw [hbus, hvector, hframe, hnmi]

end Sys2Proof.Machine

/-!
PROOFS. Flag instructions, NOP and the undocumented bytes (49_flag_other_undocumented.md): the flag instructions have the shape
`impliedInstr`; an undocumented byte, once admitted, has the shape of its documented first operation, followed by the second.
-/

namespace Sys2Proof.Machine

/-! ### Flag instructions -/

/-- An instruction that changes flags alone starts from the flags before it: the dummy read leaves them alone. -/
theorem runs_of_flags {i : Instr} {s : State} (f : Flags → Flags) (h : Harmless s (s.pc + 1))
    (he : exec i s = impliedInstr (fun u => { u with p := f u.p }) s) :
    Runs i s 1 fun u => { u with p := f s.p, pc := s.pc + 1 } :=
  runs_of h he fun u hu => by rw [← hu.p, ← hu.pc]; rfl

/-- Settles O41: each writes its flag into the flags before it, NOP changes none. -/
theorem flagInstructionResults : Obligations.FlagInstructionResults := by
  refine ⟨rfl, rfl, rfl, rfl, rfl, rfl, rfl, rfl, fun s h => ⟨?clc, ?sec, ?cli, ?sei, ?clv, ?cld, ?sed, ?nop⟩⟩
  case clc => exact runs_of_flags (fun p => { p with c := false }) h (exec_eq_meaning .clc s)
  case sec => exact runs_of_flags (fun p => { p with c := true }) h (exec_eq_meaning .sec s)
  case cli => exact runs_of_flags (fun p => { p with i := false }) h (exec_eq_meaning .cli s)
  case sei => exact runs_of_flags (fun p => { p with i := true }) h (exec_eq_meaning .sei s)
  case clv => exact runs_of_flags (fun p => { p with v := false }) h (exec_eq_meaning .clv s)
  case cld => exact runs_of_flags (fun p => { p with d := false }) h (exec_eq_meaning .cld s)
  case sed => exact runs_of_flags (fun p => { p with d := true }) h (exec_eq_meaning .sed s)
  case nop => exact runs_of h (exec_eq_meaning .nop s) fun u hu => by rw [← hu.pc]; rfl

/-! ### Undocumented immediates -/

theorem ifAdmitted_of_admitted {s : State} (h : s.cfg.admitUndocumented = true) (op : Byte) (r : Result) :
    ifAdmitted op s r = r := if_pos h

/-- An immediate byte comes with the instruction, so nothing else happens. -/
theorem readInstr_imm (b : Byte) (f : Byte → State → State) (s : State) :
    readInstr (.imm b) f s = .next (advance 2 (f b s)) := rfl

/-- Settles O45: the model's shifts are the halvings of the rules, and the flags of AXS are those of a compare. -/
theorem undocumentedImmediateResults : Obligations.UndocumentedImmediateResults := by
  intro s m h
  have hread : ∀ op f, ifAdmitted op s (readInstr (.imm m) f s) = .next (advance 2 (f m s)) := fun op f => by
    rw [ifAdmitted_of_admitted h, readInstr_imm]
  refine ⟨?anc, ?alr, ?arr, ?axs⟩
  case anc =>
    rintro i (rfl | rfl)
    · exact hread 0x0B _
    · exact hread 0x2B _
  case alr =>
    refine (hread 0x4B _).trans ?_
    simp only [rightFlags, shiftRight_eq_half, setNZ, signBit_half]
    rfl
  case arr =>
    refine (hread 0x6B _).trans ?_
    simp only [rotateRight_eq_half_add]
    rfl
  case axs => exact hread 0xCB _

/-! ### Undocumented instructions on memory -/

section
variable {i : Instr} {m : MemOperand} (ho : i.operand = .memory m) {s : State} (h : s.cfg.admitUndocumented = true)
include ho h

theorem exec_sax (hn : i.mnemonic = .sax) : exec i s = storeInstr m (fun u => u.a &&& u.x) s := by
  rw [exec_eq_meaning, meaning, hn, ho]; exact ifAdmitted_of_admitted h ..

theorem exec_lax (hn : i.mnemonic = .lax) : exec i s = readInstr m (fun v u => loadA v { u with x := v }) s := by
  rw [exec_eq_meaning, meaning, hn, ho]; exact ifAdmitted_of_admitted h ..

theorem exec_dcp (hn : i.mnemonic = .dcp) :
    exec i s = modifyInstr m (fun _ v => v - 1) (fun _ r u => compare u.a r u) s := by
  rw [exec_eq_meaning, meaning, hn, ho]; exact ifAdmitted_of_admitted h ..

theorem exec_isc (hn : i.mnemonic = .isc) :
    exec i s = modifyInstr m (fun _ v => v + 1) (fun _ r u => addWithCarry (r ^^^ 0xFF) u) s := by
  rw [exec_eq_meaning, meaning, hn, ho]; exact ifAdmitted_of_admitted h ..

theorem exec_rla (hn : i.mnemonic = .rla) :
    exec i s = modifyInstr m (fun u v => rotateLeft u.p.c v) (fun v r u => setC (v.getLsbD 7) (loadA (u.a &&& r) u)) s := by
  rw [exec_eq_meaning, meaning, hn, ho]; exact ifAdmitted_of_admitted h ..

theorem exec_rra (hn : i.mnemonic = .rra) :
    exec i s = modifyInstr m (fun u v => rotateRight u.p.c v) (fun v r u => addWithCarry r (setC (v.getLsbD 0) u)) s := by
  rw [exec_eq_meaning, meaning, hn, ho]; exact ifAdmitted_of_admitted h ..

theorem exec_slo (hn : i.mnemonic = .slo) :
    exec i s = modifyInstr m (fun _ v => shiftLeft v) (fun v r u => setC (v.getLsbD 7) (loadA (u.a ||| r) u)) s := by
  rw [exec_eq_meaning, meaning, hn, ho]; exact ifAdmitted_of_admitted h ..

theorem exec_sre (hn : i.mnemonic = .sre) :
    exec i s = modifyInstr m (fun _ v => shiftRight v) (fun v r u => setC (v.getLsbD 0) (loadA (u.a ^^^ r) u)) s := by
  rw [exec_eq_meaning, meaning, hn, ho]; exact ifAdmitted_of_admitted h ..

end

/-- Settles O46: a store of `A & X`, and a load of A that loads X with the same byte. -/
theorem saxLaxResults : Obligations.SaxLaxResults := by
  intro i s h hadmit
  refine ⟨fun hn => ?sax, fun hn => ?lax⟩
  all_goals obtain ⟨m, ho⟩ := operand_memory (i := i) (by rw [hn]; rfl)
  case sax =>
    exact stores_of h (by rw [hn]; rfl) ho (exec_sax ho hadmit hn) fun u hu => by rw [hu.a, hu.x]
  case lax =>
    refine (readsThen_of h (by rw [hn]; rfl) ho (exec_lax ho hadmit hn)).congr fun v u hu => ?_
    rw [← hu.p, ← hu.pc]; rfl

/-- After a store A is still that before the instruction, so A may be combined with the new byte, N and Z set from the result, and C
from the bit shifted out. -/
theorem setC_loadA_of_sameButStore {s u : State} (hu : SameButStore s u) (c : Bool) (r : Byte → Byte) :
    setC c (loadA (r u.a) u) =
    { s with
      a := r s.a
      p := { s.p with n := (r s.a).getLsbD 7, z := r s.a == 0, c := c }
      pc := u.pc, mem := u.mem, dmaStall := u.dmaStall, cycle := u.cycle, busLog := u.busLog } := by
  rw [hu]; rfl

/-- Settles O47: the first operation is that of the documented instruction, and the second starts from the registers before the
instruction, RRA's from the carry of its rotate. -/
theorem undocumentedModifyResults : Obligations.UndocumentedModifyResults := by
  intro i s h hadmit
  refine ⟨fun hn => ?dcp, fun hn => ?isc, fun hn => ?rla, fun hn => ?rra, fun hn => ?slo, fun hn => ?sre⟩
  all_goals
    obtain ⟨m, ho⟩ := operand_memory (i := i) (by rw [hn]; rfl)
    have hmodifies : onlyModifies i.mnemonic = true := by rw [hn]; rfl
  case dcp =>
    refine modifies_of h hmodifies ho (exec_dcp ho hadmit hn) (fun _ _ _ => rfl) fun v u hu => ?_
    rw [compare_eq, hu]
  case isc =>
    refine modifies_of h hmodifies ho (exec_isc ho hadmit hn) (fun _ _ _ => rfl) fun v u hu => ?_
    rw [addWithCarry_complement_eq, hu]
  case rla =>
    exact modifies_of h hmodifies ho (exec_rla ho hadmit hn) (fun _ v hp => hp ▸ rotateLeft_eq_double_add _ v)
      fun v _ hu => setC_loadA_of_sameButStore hu (v.getLsbD 7) (· &&& _)
  case rra =>
    refine modifies_of h hmodifies ho (exec_rra ho hadmit hn) (fun _ v hp => hp ▸ rotateRight_eq_half_add _ v) fun v u hu => ?_
    rw [addWithCarry_eq, hu]; rfl
  case slo =>
    exact modifies_of h hmodifies ho (exec_slo ho hadmit hn) (fun _ v _ => shiftLeft_eq_double v)
      fun v _ hu => setC_loadA_of_sameButStore hu (v.getLsbD 7) (· ||| _)
  case sre =>
    exact modifies_of h hmodifies ho (exec_sre ho hadmit hn) (fun _ v _ => shiftRight_eq_half v)
      fun v _ hu => setC_loadA_of_sameButStore hu (v.getLsbD 0) (· ^^^ _)

end Sys2Proof.Machine

/-!
PROOFS. BRK, the interrupt and reset sequences, and the poll (60_exceptions.md): each sequence is the entry into a handler or the
load of a vector after its discarded reads, which leave everything but what the bus saw.
-/

namespace Sys2Proof.Machine

/-! ### Entering a handler -/

section
variable {ret : Addr} {b : Bool} {vector : Addr} {s s1 t : State}

/-- What the bus saw before the entry does not matter to it. -/
theorem Entered.of_sameButBus (h : Entered ret b vector s1 t) (hs : SameButBus s s1) : Entered ret b vector s t := by
  obtain ⟨hframe, hother, hbytes, hpc⟩ := h
  simp only [hs.sp, hs.p, hs.mem, hs.byteAt, hs.isDevice] at hframe hother hbytes hpc
  refine ⟨?_, hother, hbytes, hpc⟩
  rw [hframe, hs]

/-- The latch is not among what an entry says. -/
theorem Entered.with_nmiPending (h : Entered ret b vector s t) (pending : Bool) :
    Entered ret b vector s { t with nmiPending := pending } := by
  obtain ⟨hframe, hother, hbytes, hpc⟩ := h
  refine ⟨?_, hother, hbytes, hpc⟩
  rw [hframe]

end

/-- BRK: the read of the byte after it is made wherever it does not stop, then the handler is entered. -/
theorem gated_opBrk (s : State) : GatedResult s [s.pc + 1] (opBrk s)
    (· = enterHandler (s.pc + 2) true irqVector (afterRead (s.pc + 1) s)) :=
  ((gated_discardedRead (s.pc + 1) s).bind fun _ hu => .ok (by rw [hu])).finish

/-- Settles O42: where the vector lies in memory the discarded read is the one access that a device can see. -/
theorem brkResult : Obligations.BrkResult := by
  intro s
  refine ⟨fun h => ?completes, fun hp he => (gated_opBrk s).faults _ hp (List.find?_cons_of_pos he)⟩
  case completes =>
    obtain ⟨t, ht, rfl⟩ := (gated_opBrk s).completes (List.forall_mem_singleton.2 h)
    obtain ⟨hentered, hnmi, hcycle⟩ :=
      enterHandler_spec (s.pc + 2) true irqVector (afterRead (s.pc + 1) s) (by decide) (by decide)
    refine ⟨_, ht, hentered.of_sameButBus rfl, hnmi, hcycle, fun hlow hhigh => ?_⟩
    rw [enterHandler_busLog (by exact hlow) (by exact hhigh)]
    rfl

/-! ### The interrupt sequence -/

/-- The vector of each interrupt (20_memory.md R55). -/
def interruptVector (nmi : Bool) : Addr := if nmi then nmiVector else irqVector

/-- The interrupt sequence: two discarded reads at PC, then the entry; an NMI clears its latch (60_exceptions.md R226). -/
theorem gated_interruptSequence (nmi : Bool) (s : State) : GatedResult s [s.pc, s.pc] (finish (interruptSequence nmi s))
    fun t => Entered s.pc false (interruptVector nmi) s t ∧ t.nmiPending = (if nmi then false else s.nmiPending) ∧
      t.cycle = s.cycle + 7 := by
  refine (gated_dummyRead_bind fun u hu hcycle => gated_dummyRead_bind fun w hw hcycle' => .ok ?_).finish
  obtain ⟨hentered, hnmi, hcycle''⟩ := enterHandler_spec s.pc false (interruptVector nmi) w
    (by cases nmi <;> decide) (by cases nmi <;> decide)
  have hbus := hu.trans hw
  refine ⟨(hentered.of_sameButBus hbus).with_nmiPending _, ?_, ?_⟩
  · show (if nmi then false else (enterHandler s.pc false (interruptVector nmi) w).nmiPending) = _
    rw [hnmi, hbus.nmiPending]
  · show (enterHandler s.pc false (interruptVector nmi) w).cycle = _
    rw [hcycle'', hcycle', hcycle]

/-- A step with a polled interrupt and without reset is its sequence. -/
theorem step_of_interrupt {s : State} (hr : (sampleLines s).lines.reset = false) {nmi : Bool}
    (ht : s.takeInt = if nmi then .nmi else .irq) : step s = finish (interruptSequence nmi (sampleLines s)) := by
  cases nmi <;> simp only [step, hr, sampleLines_takeInt, ht, Bool.false_eq_true, if_false, if_true]

/-- Settles O43: both interrupts run the one sequence, on the sampled state. -/
theorem interruptSequenceResult : Obligations.InterruptSequenceResult := by
  intro s hr
  have hgated : ∀ nmi : Bool, s.takeInt = (if nmi then .nmi else .irq) → GatedResult s [s.pc, s.pc] (step s) fun t =>
      Entered s.pc false (interruptVector nmi) (sampleLines s) t ∧
      t.nmiPending = (if nmi then false else (sampleLines s).nmiPending) ∧ t.cycle = s.cycle + 7 := by
    intro nmi ht
    rw [step_of_interrupt hr ht]
    simpa only [sampleLines_pc, sampleLines_cycle] using
      (gated_interruptSequence nmi (sampleLines s)).of_cfg (sampleLines_cfg s)
  have hcompletes := fun nmi ht (h : Harmless s s.pc) => (hgated nmi ht).completes (by simpa using h)
  have hfaults := fun nmi ht hp he => (hgated nmi ht).faults s.pc hp (List.find?_cons_of_pos he)
  refine ⟨fun hne => ?_, hcompletes true, hcompletes false⟩
  cases ht : s.takeInt with
  | none => exact absurd ht hne
  | nmi => exact hfaults true ht
  | irq => exact hfaults false ht

/-! ### The reset sequence -/

/-- What the reset sequence leaves where its vector lies in memory or anywhere else (60_exceptions.md R222). -/
def AfterReset (s t : State) : Prop :=
  t.p.d = false ∧ t.p.i = true ∧ t.nmiPending = false ∧ t.takeInt = .none ∧ t.mem = s.mem ∧ t.cycle = 0 ∧
    t.dmaStall = 0 ∧ t.lines = s.lines ∧ t.cfg = s.cfg ∧
    (isDevice s 0xFFFC = false → isDevice s 0xFFFD = false → t.pc = join (byteAt s 0xFFFD) (byteAt s 0xFFFC))

/-- The reset sequence: two discarded reads at PC and three of the stack before the vector is read
(70_reset_and_hazards.md R275). -/
theorem gated_resetSequence (s : State) : GatedResult s
    [s.pc, s.pc, stackAddr s.sp, stackAddr (s.sp - 1), stackAddr (s.sp - 2)] (finish (resetSequence s)) (AfterReset s) := by
  refine (gated_dummyRead_bind fun u1 h1 _ => gated_dummyRead_bind fun u2 h2 _ => gated_dummyRead_bind fun u3 h3 _ =>
    gated_dummyRead_bind fun u4 h4 _ => gated_dummyRead_bind fun u5 h5 _ => .ok ?_).finish
  have hbus : SameButBus s u5 := (((h1.trans h2).trans h3).trans h4).trans h5
  refine ⟨rfl, rfl, rfl, rfl, hbus.mem, rfl, rfl, hbus.lines, hbus.cfg, fun hlow hhigh => ?_⟩
  rw [← hbus.isDevice] at hlow hhigh
  show (readPair 0xFFFC 0xFFFD u5).1 = _
  rw [readPair_memory hlow hhigh, hbus.byteAt, hbus.byteAt]

/-- Settles O44: only the reads at PC can stop the sequence, the stack lies in RAM. -/
theorem resetSequenceResult : Obligations.ResetSequenceResult := by
  intro s hr
  have hstep : step s = finish (resetSequence (sampleLines s)) := by simp only [step, hr, if_true]
  have hgated := (gated_resetSequence (sampleLines s)).of_cfg (sampleLines_cfg s)
  rw [sampleLines_pc] at hgated
  rw [hstep]
  refine ⟨fun hp he => hgated.faults _ hp (List.find?_cons_of_pos he), fun h => ?completes⟩
  case completes =>
    obtain ⟨t, ht, hafter⟩ := hgated.completes (by simp [h, harmless_ram (stackAddr_ram _)])
    simp only [AfterReset, sampleLines_mem, sampleLines_cfg, isDevice_sampleLines, byteAt_sampleLines] at hafter
    exact ⟨t, ht, hafter⟩

/-! ### The poll and the inputs -/

@[simp] theorem sampleLines_p (s : State) : (sampleLines s).p = s.p := by unfold sampleLines; split <;> rfl

/-- What completes an instruction, field by field: the stall passes and the poll result is set. -/
theorem completeInstr_eq (m : Mnemonic) (s t : State) : completeInstr m s t =
    { t with takeInt := (completeInstr m s t).takeInt, cycle := t.cycle + t.dmaStall, dmaStall := 0 } := by
  unfold completeInstr pollAfter
  split_ifs <;> rfl

/-- The poll after an instruction (60_exceptions.md R227, R231). -/
theorem completeInstr_takeInt (m : Mnemonic) (s t : State) : (completeInstr m s t).takeInt =
    if m = .brk then t.takeInt
    else if t.nmiPending then .nmi
    else if t.lines.irq ∧ (if m ∈ [.cli, .sei, .plp] then s.p.i else t.p.i) = false then .irq
    else .none := by
  unfold completeInstr pollAfter
  by_cases hbrk : m = .brk
  · rw [if_pos hbrk, if_pos hbrk]; rfl
  · by_cases hold : m = .cli ∨ m = .sei ∨ m = .plp
    · simp [hbrk, hold]
    · simp [hbrk, hold]

/-- Settles O51: the step is the instruction completed, and no instruction changes the latch or the lines. -/
theorem pollAfterInstruction : Obligations.PollAfterInstruction := by
  intro i s t hrun hexec
  have hkeeps : Keeps (fetched i s) t := keeps_of_exec hexec
  have hstep := stepRunsDecodedInstruction i s hrun
  rw [hexec] at hstep
  obtain ⟨-, htake, -⟩ := hrun
  have hnone : t.takeInt = .none := hkeeps.takeInt.elim (fun e => e.trans ((sampleLines_takeInt s).trans htake)) id
  refine ⟨_, hstep, completeInstr_eq _ _ t, hkeeps.nmiPending, hkeeps.lines, ?_⟩
  rw [completeInstr_takeInt, hnone]
  simp only [fetched, sampleLines_p]

/-- Settles O52: only the sample at the start of the step touches the inputs, the lines and the latch. -/
theorem nmiEdgeIsLatched : Obligations.NmiEdgeIsLatched := by
  intro s t l rest hinputs hreset htake hstep
  have hsample : sampleLines s =
      { s with lines := l, inputs := rest, nmiPending := s.nmiPending || (l.nmi && !s.lines.nmi) } := by
    simp only [sampleLines, hinputs]
  rw [step_of_no_event (by rw [hsample]; exact hreset) htake] at hstep
  obtain ⟨u, hu, rfl⟩ := completeResult_eq_next hstep
  have hkeeps : Keeps (sampleLines s) u := (keeps_sameButBus (fetch_sameButBus _)).trans (keeps_of_exec hu)
  rw [completeInstr_eq]
  exact ⟨hkeeps.inputs.trans (by rw [hsample]), hkeeps.lines.trans (by rw [hsample]),
    hkeeps.nmiPending.trans (by rw [hsample])⟩

end Sys2Proof.Machine

/-!
PROOFS. The two policies for dummy accesses agree where no device answers (70_reset_and_hazards.md R275, R276): under `emit` a dummy
access is then a cycle and at most a write-back that the next write undoes, and under `refuseOnDevice` it is a cycle and is never
refused. So every sequence of accesses commutes with the change of policy.
-/

namespace Sys2Proof.Machine

/-- The same state under the refusing policy. -/
abbrev refusing (s : State) : State := withPolicy .refuseOnDevice s

/-- No device answers anywhere, memory is in canonical form, and dummy accesses are emitted. -/
structure Quiet (s : State) : Prop where
  wf : Memory.wf s.mem = true
  emit : s.cfg.dummyPolicy = .emit
  noDevice : ∀ a, isDevice s a = false

theorem Quiet.of_sameButBus {s u : State} (h : Quiet s) (hu : SameButBus s u) : Quiet u where
  wf := hu.mem ▸ h.wf
  emit := hu.cfg ▸ h.emit
  noDevice a := (hu.isDevice a).trans (h.noDevice a)

/-- Only a device can have side effects. -/
theorem noEffects_of_not_device {s : State} {a : Addr} (h : isDevice s a = false) : hasSideEffects s a = false := by
  unfold isDevice at h
  unfold hasSideEffects
  cases hk : kindAt s a with
  | memory | rom => rfl
  | device e => rw [hk] at h; cases h

/-! ### Accesses and operands -/

theorem readValue_refusing (a : Addr) (s : State) : readValue a (refusing s) = readValue a s := rfl

theorem afterRead_refusing (a : Addr) (s : State) : afterRead a (refusing s) = refusing (afterRead a s) := rfl

theorem byteAt_refusing (s : State) (a : Addr) : byteAt (refusing s) a = byteAt s a := rfl

theorem push_refusing (v : Byte) (s : State) : push v (refusing s) = refusing (push v s) := rfl

theorem readPair_refusing (low high : Addr) (s : State) :
    readPair low high (refusing s) = ((readPair low high s).1, refusing (readPair low high s).2) := rfl

section
variable {s : State} (h : Quiet s)
include h

theorem dummyRead_refusing (a : Addr) : dummyRead a (refusing s) = (dummyRead a s).map refusing := by
  have hquiet : hasSideEffects (refusing s) a = false := noEffects_of_not_device (h.noDevice a)
  rw [dummyRead_emit h.emit, afterRead_memory (h.noDevice a), dummyRead_left_out rfl hquiet]
  rfl

/-- After a dummy read the policies still agree on what follows. -/
theorem dummyRead_bind_refusing {β : Type} {a : Addr} {k k' : State → Except Fault β} {g : β → β}
    (hk : ∀ u, Quiet u → k' (refusing u) = (k u).map g) :
    (dummyRead a (refusing s)).bind k' = ((dummyRead a s).bind k).map g := by
  rw [dummyRead_refusing h]
  cases hr : dummyRead a s with
  | error f => rfl
  | ok u => exact hk u (h.of_sameButBus (dummyRead_inv hr).1)

theorem indexed_refusing (always : Bool) (base : Addr) (idx : Byte) :
    indexed always base idx (refusing s) = (indexed always base idx s).map fun x => (x.1, refusing x.2) := by
  unfold indexed
  rw [dummyRead_refusing h]
  split
  · cases dummyRead (uncorrected base idx) s <;> rfl
  · rfl

theorem address_refusing (always : Bool) (m : MemOperand) :
    address always m (refusing s) = (address always m s).map fun x => (x.1, refusing x.2) := by
  cases m with
  | imm b | zp b | abs a => rfl
  | zpX b | zpY b => exact dummyRead_bind_refusing h fun _ _ => rfl
  | indX b => exact dummyRead_bind_refusing h fun u _ => congrArg Except.ok (readPair_refusing _ _ u)
  | absX a | absY a => exact indexed_refusing h ..
  | indY b =>
    have hpair : read16ZP b (refusing s) = ((read16ZP b s).1, refusing (read16ZP b s).2) := readPair_refusing ..
    rw [address, hpair]
    exact indexed_refusing (h.of_sameButBus (readPair_sameButBus (zext b) (zext (b + 1)) s).1) ..

theorem address_bind_refusing {β : Type} {always : Bool} {m : MemOperand} {k k' : Addr × State → Except Fault β}
    {g : β → β}
    (hk : ∀ ea u, Quiet u → k' (ea, refusing u) = (k (ea, u)).map g) :
    (address always m (refusing s)).bind k' = ((address always m s).bind k).map g := by
  rw [address_refusing h]
  cases ha : address always m s with
  | error f => rfl
  | ok x => exact hk x.1 x.2 (h.of_sameButBus (address_sameButBus ha))

theorem readOperand_refusing (m : MemOperand) :
    readOperand m (refusing s) = (readOperand m s).map fun x => (x.1, refusing x.2) := by
  by_cases hm : ∃ b, m = .imm b
  · obtain ⟨b, rfl⟩ := hm
    rfl
  · rw [readOperand_of_ne_imm (not_exists.1 hm), readOperand_of_ne_imm (not_exists.1 hm)]
    exact address_bind_refusing h fun _ _ _ => rfl

/-- The write of the new byte undoes the write-back: memory, the stall and the cycle count are those of the new byte's write. -/
theorem write_after_writeBack (a : Addr) (v r : Byte) : write a r (write a v s) = write a r (tick s) := by
  have hwritable : isWritable (tick s) a = isWritable s a := rfl
  have hdev : isDevice (tick s) a = false := h.noDevice a
  have hmem : (write a r (write a v s)).mem = (write a r (tick s)).mem := by
    rw [write_mem, write_mem, write_mem, isWritable_write, hwritable, tick_mem]
    split
    · exact Memory.write_write s.mem (cell a) v r h.wf
    · rfl
  have hlog : (write a r (write a v s)).busLog = (write a r (tick s)).busLog := by
    rw [write_busLog, write_busLog, write_busLog, isDevice_write, h.noDevice a, hdev]
    rfl
  have hstall : (write a r (write a v s)).dmaStall = (write a r (tick s)).dmaStall := by
    rw [write_dmaStall, write_dmaStall, write_dmaStall]
    split <;> rfl
  calc write a r (write a v s) = { tick s with
        mem := (write a r (write a v s)).mem, busLog := (write a r (write a v s)).busLog
        dmaStall := (write a r (write a v s)).dmaStall, cycle := s.cycle + 2 } := rfl
    _ = write a r (tick s) := by rw [hmem, hlog, hstall]; rfl

/-! ### The shapes of instructions -/

theorem readInstr_refusing {m : MemOperand} {f : Byte → State → State} (hf : ∀ v u, f v (refusing u) = refusing (f v u)) :
    readInstr m f (refusing s) = mapNext refusing (readInstr m f s) := by
  refine (congrArg finish (bind_commutes (readOperand_refusing h m) fun x => ?_)).trans (finish_map refusing _)
  rw [hf]
  rfl

theorem storeInstr_refusing {m : MemOperand} {v : State → Byte} (hv : ∀ u, v (refusing u) = v u) :
    storeInstr m v (refusing s) = mapNext refusing (storeInstr m v s) := by
  refine (congrArg finish (address_bind_refusing h fun ea u _ => ?_)).trans (finish_map refusing _)
  rw [hv]
  rfl

/-- What a read-modify-write does after the write-back, which the refusing policy leaves out. -/
theorem secondWrite_refusing {f : State → Byte → Byte} {g : Byte → Byte → State → State}
    (hf : ∀ u w v, u.p = w.p → f u v = f w v) (hg : ∀ v r u, g v r (refusing u) = refusing (g v r u))
    (a : Addr) (v : Byte) :
    g v (f (refusing (tick s)) v) (write a (f (refusing (tick s)) v) (refusing (tick s))) =
      refusing (g v (f (write a v s) v) (write a (f (write a v s) v) (write a v s))) := by
  have hnew : f (refusing (tick s)) v = f (write a v s) v := hf _ _ _ rfl
  rw [hnew, write_after_writeBack h]
  exact hg v _ (write a _ (tick s))

/-- A read-modify-write whose new byte depends on the flags at most. -/
theorem modifyInstr_refusing {m : MemOperand} {f : State → Byte → Byte} {g : Byte → Byte → State → State}
    (hf : ∀ u w v, u.p = w.p → f u v = f w v) (hg : ∀ v r u, g v r (refusing u) = refusing (g v r u)) :
    modifyInstr m f g (refusing s) = mapNext refusing (modifyInstr m f g s) := by
  refine (congrArg finish (address_bind_refusing h fun ea u hu => ?_)).trans (finish_map refusing _)
  have hread : Quiet (afterRead ea u) := hu.of_sameButBus (sameButBus_afterRead ea u)
  have hrefused : dummyWrite ea (readValue ea u) (refusing (afterRead ea u)) = .ok (refusing (tick (afterRead ea u))) :=
    dummyWrite_left_out rfl (noEffects_of_not_device (hread.noDevice ea))
  have hemitted : dummyWrite ea (readValue ea u) (afterRead ea u) = .ok (write ea (readValue ea u) (afterRead ea u)) :=
    dummyWrite_emit hread.emit
  show (dummyWrite ea (readValue ea u) (refusing (afterRead ea u))).bind _ =
    ((dummyWrite ea (readValue ea u) (afterRead ea u)).bind _).map refusing
  rw [hrefused, hemitted]
  exact congrArg (fun t => Except.ok (advance m.length t)) (secondWrite_refusing hread hf hg ea (readValue ea u))

theorem impliedInstr_refusing {f : State → State} (hf : ∀ u, f (refusing u) = refusing (f u)) :
    impliedInstr f (refusing s) = mapNext refusing (impliedInstr f s) := by
  refine (congrArg finish (dummyRead_bind_refusing h fun u _ => ?_)).trans (finish_map refusing _)
  rw [hf]
  rfl

theorem branch_refusing (cond : Bool) (offset : Byte) :
    branch cond offset (refusing s) = mapNext refusing (branch cond offset s) := by
  cases cond with
  | false => rfl
  | true =>
    refine (congrArg finish (dummyRead_bind_refusing h fun u hu => ?_)).trans (finish_map refusing _)
    exact ite_commutes Iff.rfl (dummyRead_bind_refusing hu fun _ _ => rfl) rfl

omit h in
theorem ifAdmitted_refusing {op : Byte} {r r' : Result} (hr : r' = mapNext refusing r) :
    ifAdmitted op (refusing s) r' = mapNext refusing (ifAdmitted op s r) :=
  ite_commutes Iff.rfl hr rfl

theorem pullInstr_refusing {f : State → State} (hf : ∀ u, f (refusing u) = refusing (f u)) :
    pullInstr f (refusing s) = (pullInstr f s).map refusing :=
  dummyRead_bind_refusing h fun _ hu => dummyRead_bind_refusing hu fun w _ => congrArg Except.ok (hf w)

theorem opPla_refusing : opPla (refusing s) = mapNext refusing (opPla s) := by
  refine (congrArg finish (bind_commutes (pullInstr_refusing h ?_) ?_)).trans (finish_map refusing _) <;>
    exact fun _ => rfl

theorem opPlp_refusing : opPlp (refusing s) = mapNext refusing (opPlp s) := by
  refine (congrArg finish (bind_commutes (pullInstr_refusing h ?_) ?_)).trans (finish_map refusing _) <;>
    exact fun _ => rfl

omit h in
theorem returnFromHandler_refusing (u : State) : returnFromHandler (refusing u) = refusing (returnFromHandler u) := by
  simp only [returnFromHandler_spec, byteAt_refusing]
  rfl

theorem opRti_refusing : opRti (refusing s) = mapNext refusing (opRti s) := by
  refine (congrArg finish (dummyRead_bind_refusing h fun u hu => dummyRead_bind_refusing hu fun w _ => ?_)).trans
    (finish_map refusing _)
  rw [returnFromHandler_refusing]
  rfl

omit h in
theorem opJsr_refusing (a : Addr) : opJsr a (refusing s) = mapNext refusing (opJsr a s) := by
  have hpc : (refusing s).pc = s.pc := rfl
  have htick : tick (refusing s) = refusing (tick s) := rfl
  have hpushed : jsrPushed (refusing s) = refusing (jsrPushed s) := by
    simp only [jsrPushed, pushAddr, htick, hpc, push_refusing]
  rw [opJsr_eq, opJsr_eq, hpc, hpushed, readValue_refusing, afterRead_refusing]
  rfl

omit h in
theorem quiet_pullAddr {u : State} (hu : Quiet u) : Quiet (pullAddr u).2 := by
  rw [pullAddr_spec]
  exact ⟨hu.wf, hu.emit, hu.noDevice⟩

theorem opRts_refusing : opRts (refusing s) = mapNext refusing (opRts s) :=
  (congrArg finish (dummyRead_bind_refusing h fun _ hu => dummyRead_bind_refusing hu fun _ hw =>
    dummyRead_bind_refusing (quiet_pullAddr hw) fun _ _ => rfl)).trans (finish_map refusing _)

omit h in
theorem enterHandler_refusing (ret : Addr) (b : Bool) (vector : Addr) (s : State) :
    enterHandler ret b vector (refusing s) = refusing (enterHandler ret b vector s) := by
  have hread : ∀ u, read16 vector (refusing u) = ((read16 vector u).1, refusing (read16 vector u).2) := fun _ => rfl
  have hset : ∀ u, setI true (refusing u) = refusing (setI true u) := fun _ => rfl
  have hflags : ∀ u : State, (refusing u).p = u.p := fun _ => rfl
  simp only [enterHandler, pushAddr, push_refusing, hflags, hset, hread]
  rfl

theorem opBrk_refusing : opBrk (refusing s) = mapNext refusing (opBrk s) := by
  have hread : discardedRead (s.pc + 1) s = .ok (afterRead (s.pc + 1) s) := discardedRead_ok (.inl h.emit)
  have hread' : discardedRead (s.pc + 1) (refusing s) = .ok (afterRead (s.pc + 1) (refusing s)) :=
    discardedRead_ok (.inr (noEffects_of_not_device (h.noDevice _)))
  refine (congrArg finish ?_).trans (finish_map refusing _)
  show (discardedRead (s.pc + 1) (refusing s)).bind _ = _
  rw [hread', hread]
  exact congrArg Except.ok (enterHandler_refusing _ _ _ (afterRead (s.pc + 1) s))

/-- Every instruction commutes with the change of policy. -/
theorem exec_refusing (i : Instr) : exec i (refusing s) = mapNext refusing (exec i s) := by
  rw [exec_eq_meaning, exec_eq_meaning]
  cases hn : i.mnemonic
  case unlisted => simp only [meaning, hn]; rfl
  case plp => simp only [meaning, hn]; exact opPlp_refusing h
  case rti => simp only [meaning, hn]; exact opRti_refusing h
  case pla => simp only [meaning, hn]; exact opPla_refusing h
  case rts => simp only [meaning, hn]; exact opRts_refusing h
  case brk => simp only [meaning, hn]; exact opBrk_refusing h
  case jsr =>
    obtain ⟨a, ho⟩ := operand_jsr hn
    simp only [meaning, hn, ho, onAddress]
    exact opJsr_refusing a
  case jmp =>
    rcases operand_jmp hn with ⟨a, ho⟩ | ⟨a, ho⟩ <;> simp only [meaning, hn, ho, onAddress] <;> rfl
  case tax | tay | tsx | txa | txs | tya | pha | php | inx | iny | dex | dey | clc | sec | cli | sei | clv | cld | sed | nop =>
    simp only [meaning, hn]
    exact impliedInstr_refusing h fun _ => rfl
  case bpl | bmi | bvc | bvs | bcc | bcs | bne | beq =>
    obtain ⟨b, ho⟩ := operand_relative (i := i) (by rw [hn]; rfl)
    simp only [meaning, hn, ho, onByte]
    exact branch_refusing h ..
  case asl | lsr | rol | ror =>
    rcases operand_memoryOrA (i := i) (by rw [hn]; rfl) with ho | ⟨m, ho⟩ <;> simp only [meaning, hn, ho]
    · exact impliedInstr_refusing h fun _ => rfl
    · exact modifyInstr_refusing h (fun _ _ _ hp => by simp only [hp]) fun _ _ _ => rfl
  case anc | alr | arr | axs =>
    obtain ⟨b, ho⟩ := operand_immediate (i := i) (by rw [hn]; rfl)
    simp only [meaning, hn, ho, onByte]
    exact ifAdmitted_refusing (readInstr_refusing h fun _ _ => rfl)
  all_goals
    obtain ⟨m, ho⟩ := operand_memory (i := i) (by rw [hn]; rfl)
    simp only [meaning, hn, ho, onMemory]
  case lda | ldx | ldy | adc | sbc | and | ora | eor | cmp | cpx | cpy | bit => exact readInstr_refusing h fun _ _ => rfl
  case lax => exact ifAdmitted_refusing (readInstr_refusing h fun _ _ => rfl)
  case sta | stx | sty => exact storeInstr_refusing h fun _ => rfl
  case sax => exact ifAdmitted_refusing (storeInstr_refusing h fun _ => rfl)
  case inc | dec => exact modifyInstr_refusing h (fun _ _ _ _ => rfl) fun _ _ _ => rfl
  case dcp | isc | rla | rra | slo | sre =>
    exact ifAdmitted_refusing (modifyInstr_refusing h (fun _ _ _ hp => by simp only [hp]) fun _ _ _ => rfl)

/-! ### The step -/

theorem interruptSequence_refusing (nmi : Bool) :
    interruptSequence nmi (refusing s) = (interruptSequence nmi s).map refusing :=
  dummyRead_bind_refusing h fun _ hu => dummyRead_bind_refusing hu fun w _ => by
    have hpc : (refusing s).pc = s.pc := rfl
    rw [hpc, enterHandler_refusing]
    rfl

theorem resetSequence_refusing : resetSequence (refusing s) = (resetSequence s).map refusing :=
  dummyRead_bind_refusing h fun _ h1 => dummyRead_bind_refusing h1 fun _ h2 => dummyRead_bind_refusing h2 fun _ h3 =>
    dummyRead_bind_refusing h3 fun _ h4 => dummyRead_bind_refusing h4 fun _ _ => rfl

end

theorem sampleLines_refusing (s : State) : sampleLines (refusing s) = refusing (sampleLines s) := by
  unfold sampleLines
  have hinputs : (refusing s).inputs = s.inputs := rfl
  rw [hinputs]
  cases s.inputs <;> rfl

theorem fetch_refusing (s : State) : fetch (refusing s) = ((fetch s).1, refusing (fetch s).2) := by
  have hpc : (refusing s).pc = s.pc := rfl
  simp only [fetch, read_fst, read_snd, readValue_refusing, afterRead_refusing, hpc]
  cases entryOf (readValue s.pc s) with
  | one i | two mk => rfl
  | three mk => exact Prod.ext rfl (ite_commutes (g := refusing) Iff.rfl rfl rfl)

theorem completeInstr_refusing (m : Mnemonic) (s t : State) :
    completeInstr m (refusing s) (refusing t) = refusing (completeInstr m s t) := by
  unfold completeInstr pollAfter
  split_ifs <;> rfl

theorem Quiet.sampleLines {s : State} (h : Quiet s) : Quiet (sampleLines s) where
  wf := (sampleLines_mem s).symm ▸ h.wf
  emit := (sampleLines_cfg s).symm ▸ h.emit
  noDevice a := (isDevice_sampleLines s a).trans (h.noDevice a)

theorem step_refusing {s : State} (h : Quiet s) : step (refusing s) = mapNext refusing (step s) := by
  have hsample := h.sampleLines
  simp only [step, sampleLines_refusing, fetch_refusing]
  refine ite_commutes Iff.rfl ?reset ?_
  case reset => rw [resetSequence_refusing hsample, finish_map]
  have htake : (refusing (sampleLines s)).takeInt = (sampleLines s).takeInt := rfl
  rw [htake]
  cases (sampleLines s).takeInt with
  | nmi => exact (congrArg finish (interruptSequence_refusing hsample true)).trans (finish_map refusing _)
  | irq => exact (congrArg finish (interruptSequence_refusing hsample false)).trans (finish_map refusing _)
  | none =>
    have hfetched := hsample.of_sameButBus (fetch_sameButBus (sampleLines s))
    simp only [exec_refusing hfetched]
    cases exec (fetch (sampleLines s)).1 (fetch (sampleLines s)).2 with
    | next t => exact congrArg Host.Outcome.next (completeInstr_refusing ..)
    | fault f => rfl
    | refused r => rfl

/-- Settles O58: the state under `emit` is quiet, and its step commutes with the change of policy. -/
theorem dummyPoliciesAgree : Obligations.DummyPoliciesAgree := by
  intro s hwf hdev
  have hstep := step_refusing (s := withPolicy .emit s) ⟨hwf, rfl, hdev⟩
  have hrefusing : refusing (withPolicy .emit s) = withPolicy .refuseOnDevice s := rfl
  rw [hrefusing] at hstep
  rw [hstep]
  cases step (withPolicy .emit s) <;> rfl

end Sys2Proof.Machine

/-!
PROOFS. Cycle counts (70_reset_and_hazards.md R281): the machine counts one cycle for each access, the spec's table one number for
each row. Each shape of instruction is gone through once, with its dummy accesses and its cycles.
-/

namespace Sys2Proof.Machine

/-! ### The accesses of an operand -/

theorem gated_indexed (always : Bool) (base : Addr) (idx : Byte) (s : State) :
    Gated s (if always || pageCrossed base idx then [uncorrected base idx] else []) (indexed always base idx s)
      fun x => x.1 = base + zext idx ∧ SameButBus s x.2 ∧
        x.2.cycle = s.cycle + (if always || pageCrossed base idx then 1 else 0) := by
  refine ⟨fun h => ?completes, fun a hp ha => ?faults⟩
  case completes =>
    obtain ⟨t, ht, hbus, hcycle⟩ := indexed_ok h
    exact ⟨_, ht, rfl, hbus, hcycle⟩
  case faults =>
    unfold indexed
    split at ha
    · rename_i hx
      obtain ⟨he, rfl⟩ := find?_singleton_eq_some ha
      rw [if_pos hx, dummyRead_refused hp he]
    · cases ha

/-- A dummy access in RAM is never refused. -/
theorem find?_ram (s : State) {a : Addr} (h : a.toNat < 0x2000) : [a].find? (hasSideEffects s) = none := by
  simp [ram_noEffects h]

/-- The effective address, after the dummy read of its mode. -/
theorem gated_address (always : Bool) (m : MemOperand) (s : State) :
    Gated s (operandDummies always m s) (address always m s) fun x =>
      x.1 = effective m s ∧ SameButBus s x.2 ∧ x.2.cycle = s.cycle + addressCycles always m s := by
  refine ⟨fun h => ?completes, fun a hp ha => ?faults⟩
  case completes =>
    obtain ⟨t, ht, hbus, hcycle⟩ := address_ok h
    exact ⟨_, ht, rfl, hbus, hcycle⟩
  case faults =>
    cases m with
    | imm b | zp b | abs b => cases ha
    | zpX b | zpY b | indX b => cases (find?_ram s (zext_ram b)).symm.trans ha
    | absX b | absY b => exact (gated_indexed ..).faults a hp ha
    | indY b =>
      rw [address, read16ZP_spec]
      exact ((gated_indexed ..).of_cfg rfl).faults a hp ha

/-- The cycles of reading an operand byte. -/
def operandCycles (m : MemOperand) (s : State) : Nat :=
  match m with
  | .imm _ => 0
  | m => addressCycles false m s + 1

theorem gated_readOperand (m : MemOperand) (s : State) :
    Gated s (operandDummies false m s) (readOperand m s) fun x =>
      SameButBus s x.2 ∧ x.2.cycle = s.cycle + operandCycles m s := by
  refine ⟨fun h => ?completes, fun a hp ha => ?faults⟩
  case completes =>
    obtain ⟨v, t, ht, hbus, hcycle⟩ := readOperand_ok h
    exact ⟨_, ht, hbus, hcycle.trans (by cases m <;> rfl)⟩
  case faults =>
    by_cases hm : ∃ b, m = .imm b
    · obtain ⟨b, rfl⟩ := hm
      cases ha
    · rw [readOperand_of_ne_imm (not_exists.1 hm), (gated_address false m s).faults a hp ha]
      rfl

/-! ### The shapes of instructions -/

theorem gated_readInstr (m : MemOperand) {f : Byte → State → State} (hf : ∀ v u, (f v u).cycle = u.cycle) (s : State) :
    GatedResult s (operandDummies false m s) (readInstr m f s) fun t => t.cycle = s.cycle + operandCycles m s := by
  rw [← List.append_nil (operandDummies false m s)]
  refine ((gated_readOperand m s).bind fun x hx => .ok ?_).finish
  rw [advance_cycle, hf, hx.2]

/-- A store, with the state in which it writes. -/
theorem gated_storeInstr (m : MemOperand) (v : State → Byte) (s : State) :
    GatedResult s (operandDummies true m s) (storeInstr m v s) fun t => ∃ u, SameButBus s u ∧
      u.cycle = s.cycle + addressCycles true m s ∧ t = advance m.length (write (effective m s) (v u) u) := by
  rw [← List.append_nil (operandDummies true m s)]
  refine ((gated_address true m s).bind fun x hx => .ok ?_).finish
  obtain ⟨ea, u⟩ := x
  obtain ⟨rfl, hbus, hcycle⟩ := hx
  exact ⟨u, hbus, hcycle, rfl⟩

theorem gated_dummyWrite (a : Addr) (v : Byte) (s : State) :
    Gated s [a] (dummyWrite a v s) fun t => t = write a v s ∨ t = tick s := by
  refine ⟨fun h => ?completes, fun b hp hb => ?faults⟩
  case completes =>
    rcases dummyWrite_ok (h a (List.mem_singleton_self a)) v with hw | hw
    · exact ⟨_, hw, .inl rfl⟩
    · exact ⟨_, hw, .inr rfl⟩
  case faults =>
    obtain ⟨he, rfl⟩ := find?_singleton_eq_some hb
    exact dummyWrite_refused hp he v

/-- What a write-back leaves, issued or left out: at most the byte of its own cell has changed. -/
theorem writeBack_spec {a : Addr} {v : Byte} {s r u : State} (hr : SameButBus s r) (hu : u = write a v r ∨ u = tick r) :
    SameButStore s u ∧ u.pc = s.pc ∧ OnlyCellChanges a s u ∧ u.cycle = r.cycle + 1 := by
  have hstore : SameButStore s u := by
    rcases hu with rfl | rfl <;> (rw [hr]; rfl)
  refine ⟨hstore, ?pc, fun b hb => ?_, ?cycle⟩
  case pc => rcases hu with rfl | rfl <;> exact hr.pc
  case cycle => rcases hu with rfl | rfl <;> rfl
  rw [← hr.byteAt]
  rcases hu with rfl | rfl
  · exact onlyCellChanges_write a v r b hb
  · rfl

/-- A read-modify-write, with the state of its second write: after the write-back, issued or left out. -/
theorem gated_modifyInstr (m : MemOperand) (f : State → Byte → Byte) (g : Byte → Byte → State → State) (s : State) :
    GatedResult s (operandDummies true m s ++ [effective m s]) (modifyInstr m f g s) fun t => ∃ v r u,
      SameButStore s u ∧ u.pc = s.pc ∧ OnlyCellChanges (effective m s) s u ∧
      u.cycle = s.cycle + addressCycles true m s + 2 ∧ t = advance m.length (g v r (write (effective m s) r u)) := by
  refine ((gated_address true m s).bind fun x hx => ?_).finish
  obtain ⟨ea, u⟩ := x
  obtain ⟨rfl, hbus, hcycle⟩ := hx
  have hread : SameButBus s (afterRead (effective m s) u) := hbus.trans (sameButBus_afterRead _ u)
  rw [← List.append_nil [effective m s]]
  refine ((gated_dummyWrite _ (readValue (effective m s) u) _).of_cfg hread.cfg).bind fun w hw => .ok ?_
  obtain ⟨hstore, hpc, honly, hcycle'⟩ := writeBack_spec hread hw
  refine ⟨_, _, w, hstore, hpc, honly, ?_, rfl⟩
  rw [hcycle', afterRead_cycle, hcycle]

theorem gated_impliedInstr {f : State → State} {n : Nat} (s : State) (hf : ∀ u, (f u).cycle = u.cycle + n) :
    GatedResult s [s.pc + 1] (impliedInstr f s) fun t => t.cycle = s.cycle + (n + 1) := by
  refine (gated_dummyRead_bind fun u _ hcycle => .ok ?_).finish
  rw [advance_cycle, hf, hcycle]
  omega

/-- An instruction that pulls a byte: two discarded reads, then the pull. -/
theorem gated_pullInstr {f : State → State} (s : State) (hf : ∀ u, (f u).cycle = u.cycle + 1) :
    GatedResult s [s.pc + 1, stackAddr s.sp] (finish ((pullInstr f s).bind fun t => .ok (advance 1 t))) fun t =>
      t.cycle = s.cycle + 3 := by
  have hpull : Gated s [s.pc + 1, stackAddr s.sp] (pullInstr f s) fun t => t.cycle = s.cycle + 3 :=
    gated_dummyRead_bind fun u _ hcycle => gated_dummyRead_bind fun w _ hcycle' => .ok (by rw [hf, hcycle', hcycle])
  exact (hpull.bind fun t ht => .ok ht).finish

/-- JSR can always go on: its dummy read is in page $01. -/
theorem gated_opJsr (a : Addr) (s : State) :
    GatedResult s [stackAddr s.sp] (opJsr a s) fun t => t.cycle = s.cycle + 4 := by
  refine ⟨fun _ => ?_, fun a _ ha => ?_⟩
  · obtain ⟨t, ht, hcycle, -⟩ := jsrResult s a
    exact ⟨t, ht, hcycle⟩
  · cases (find?_ram s (stackAddr_ram _)).symm.trans ha

/-! ### The instructions of each shape -/

theorem Executable.admitted {i : Instr} {s : State} (h : Executable i s) (hu : i.mnemonic.status = .undocumented) :
    s.cfg.admitUndocumented = true := h.2 hu

/-- The adder writes A and the flags. -/
theorem addWithCarry_frame (v : Byte) (u : State) :
    addWithCarry v u = { u with a := (addWithCarry v u).a, p := (addWithCarry v u).p } := by
  rw [addWithCarry_eq]

section
variable {i : Instr} {m : MemOperand} {s : State} (ho : i.operand = .memory m)
include ho

theorem dummyAddresses_reads (hr : onlyReads i.mnemonic = true) (s : State) :
    dummyAddresses i s = operandDummies false m s := by
  rw [dummyAddresses, ho]
  generalize i.mnemonic = n at hr
  cases n
  case lda | ldx | ldy | adc | sbc | and | ora | eor | cmp | cpx | cpy | bit | lax | anc | alr | arr | axs => rfl
  all_goals cases hr

theorem dummyAddresses_stores (hr : onlyStores i.mnemonic = true) (s : State) :
    dummyAddresses i s = operandDummies true m s := by
  rw [dummyAddresses, ho]
  generalize i.mnemonic = n at hr
  cases n
  case sta | stx | sty | sax => rfl
  all_goals cases hr

theorem dummyAddresses_modifies (hr : onlyModifies i.mnemonic = true) (s : State) :
    dummyAddresses i s = operandDummies true m s ++ [effective m s] := by
  rw [dummyAddresses, ho]
  generalize i.mnemonic = n at hr
  cases n
  case inc | dec | asl | lsr | rol | ror | dcp | isc | rla | rra | slo | sre => rfl
  all_goals cases hr

/-- What a reading instruction does with its byte takes no time. -/
theorem exec_reads (hx : Executable i s) (hr : onlyReads i.mnemonic = true) :
    ∃ f, exec i s = readInstr m f s ∧ ∀ v u, (f v u).cycle = u.cycle := by
  rw [exec_eq_meaning]
  cases hn : i.mnemonic <;> rw [hn] at hr
  case lda | ldx | ldy | adc | sbc | and | ora | eor | cmp | cpx | cpy | bit =>
    simp only [meaning, hn, ho, onMemory]
    exact ⟨_, rfl, fun _ _ => rfl⟩
  case lax =>
    simp only [meaning, hn, ho, onMemory]
    exact ⟨_, ifAdmitted_of_admitted (hx.admitted (by rw [hn]; rfl)) .., fun _ _ => rfl⟩
  case anc | alr | arr | axs =>
    obtain ⟨b, hb⟩ := operand_immediate (i := i) (by rw [hn]; rfl)
    cases ho.symm.trans hb
    simp only [meaning, hn, ho, onByte]
    exact ⟨_, ifAdmitted_of_admitted (hx.admitted (by rw [hn]; rfl)) .., fun _ _ => rfl⟩
  all_goals cases hr

theorem exec_stores (hx : Executable i s) (hr : onlyStores i.mnemonic = true) : ∃ v, exec i s = storeInstr m v s := by
  cases hn : i.mnemonic <;> rw [hn] at hr
  case sta => exact ⟨_, exec_sta ho s hn⟩
  case stx => exact ⟨_, exec_stx ho s hn⟩
  case sty => exact ⟨_, exec_sty ho s hn⟩
  case sax => exact ⟨_, exec_sax ho (hx.admitted (by rw [hn]; rfl)) hn⟩
  all_goals cases hr

/-- After its second write a read-modify-write instruction changes A and the flags alone. -/
theorem exec_modifies (hx : Executable i s) (hr : onlyModifies i.mnemonic = true) :
    ∃ f g, exec i s = modifyInstr m f g s ∧ ∀ v r u, g v r u = { u with a := (g v r u).a, p := (g v r u).p } := by
  cases hn : i.mnemonic <;> rw [hn] at hr
  case inc => exact ⟨_, _, exec_inc ho s hn, fun _ _ _ => rfl⟩
  case dec => exact ⟨_, _, exec_dec ho s hn, fun _ _ _ => rfl⟩
  case asl => exact ⟨_, _, exec_asl ho s hn, fun _ _ _ => rfl⟩
  case lsr => exact ⟨_, _, exec_lsr ho s hn, fun _ _ _ => rfl⟩
  case rol => exact ⟨_, _, exec_rol ho s hn, fun _ _ _ => rfl⟩
  case ror => exact ⟨_, _, exec_ror ho s hn, fun _ _ _ => rfl⟩
  case dcp => exact ⟨_, _, exec_dcp ho (hx.admitted (by rw [hn]; rfl)) hn, fun _ _ _ => rfl⟩
  case isc => exact ⟨_, _, exec_isc ho (hx.admitted (by rw [hn]; rfl)) hn, fun _ _ _ => addWithCarry_frame ..⟩
  case rla => exact ⟨_, _, exec_rla ho (hx.admitted (by rw [hn]; rfl)) hn, fun _ _ _ => rfl⟩
  case rra => exact ⟨_, _, exec_rra ho (hx.admitted (by rw [hn]; rfl)) hn, fun _ _ _ => addWithCarry_frame ..⟩
  case slo => exact ⟨_, _, exec_slo ho (hx.admitted (by rw [hn]; rfl)) hn, fun _ _ _ => rfl⟩
  case sre => exact ⟨_, _, exec_sre ho (hx.admitted (by rw [hn]; rfl)) hn, fun _ _ _ => rfl⟩
  all_goals cases hr

end

/-! ### The cycles of each shape -/

theorem operandCycles_eq (m : MemOperand) (s : State) :
    operandCycles m s = plainOperandCycles m + if operandCrosses m s then 1 else 0 := by
  cases m with
  | absX a | absY a | indY b => simp only [operandCycles, addressCycles, plainOperandCycles, Bool.false_or]; split_ifs <;> rfl
  | _ => rfl

section
variable {i : Instr} {m : MemOperand} (h : i.listed = true) (ho : i.operand = .memory m) (s : State)
include h ho

/-- The rows of the reading instructions: their stars are the modes that can cross a page. -/
theorem cyclesOf_reads (hr : onlyReads i.mnemonic = true) : cyclesOf i s = fetchLength i + operandCycles m s := by
  rw [cyclesOf_eq, plainCycles_eq h, ho, rowCycles_reads hr, extraCycles_memory ho, hr, operandCycles_eq, Nat.add_assoc,
    Bool.true_and]

/-- The rows of the storing instructions: none has a star. -/
theorem cyclesOf_stores (hr : onlyStores i.mnemonic = true) :
    cyclesOf i s = fetchLength i + (addressCycles true m s + 1) := by
  rw [cyclesOf_eq, plainCycles_eq h, ho, rowCycles_stores hr, extraCycles_memory ho, not_onlyReads_of_stores hr,
    addressCycles_true]
  rfl

theorem cyclesOf_modifies (hr : onlyModifies i.mnemonic = true) :
    cyclesOf i s = fetchLength i + (addressCycles true m s + 3) := by
  rw [cyclesOf_eq, plainCycles_eq h, ho, rowCycles_modifies hr, extraCycles_memory ho, not_onlyReads_of_modifies hr,
    addressCycles_true]
  rfl

end

theorem cyclesOf_relative {i : Instr} {b : Byte} (h : i.listed = true) (ho : i.operand = .relative b) (s : State) :
    cyclesOf i s = fetchLength i + branchCycles (branchCondition i.mnemonic s.p) b s := by
  rw [cyclesOf_eq, plainCycles_eq h, extraCycles, ho]
  rfl

theorem cyclesOf_implied {i : Instr} (h : i.listed = true) (ho : i.operand = .implied ∨ i.operand = .accumulator) (s : State) :
    cyclesOf i s = fetchLength i + impliedCycles i.mnemonic := by
  rw [cyclesOf_eq, plainCycles_eq h, extraCycles]
  rcases ho with ho | ho <;> rw [ho] <;> rfl

section
variable {i : Instr} (h : i.listed = true) (s : State)
include h

/-- The rows of the jumps: JMP reads nothing but its pointer, JSR makes its own accesses. -/
theorem cyclesOf_jmp (hn : i.mnemonic = .jmp) {a : Addr} (ho : i.operand = .memory (.abs a)) :
    cyclesOf i s = fetchLength i + 0 := by
  rw [cyclesOf_eq, plainCycles_eq h, extraCycles_memory ho, hn, ho]
  rfl

theorem cyclesOf_jmpIndirect {ptr : Addr} (ho : i.operand = .indirect ptr) : cyclesOf i s = fetchLength i + 2 := by
  rw [cyclesOf_eq, plainCycles_eq h, extraCycles, ho]
  rfl

theorem cyclesOf_jsr (hn : i.mnemonic = .jsr) {a : Addr} (ho : i.operand = .memory (.abs a)) :
    cyclesOf i s = fetchLength i + 4 := by
  rw [cyclesOf_eq, plainCycles_eq h, extraCycles_memory ho, hn, ho]
  rfl

end

/-! ### Every instruction -/

/-- What the spec says of an instruction's time, whatever its dummy accesses do. -/
def OnTime (i : Instr) (s : State) : Prop :=
  GatedResult s (dummyAddresses i s) (exec i s) fun t => t.cycle + fetchLength i = s.cycle + cyclesOf i s

theorem onTime_of {i : Instr} {s : State} {n : Nat} (hn : cyclesOf i s = fetchLength i + n)
    (h : GatedResult s (dummyAddresses i s) (exec i s) fun t => t.cycle = s.cycle + n) : OnTime i s :=
  h.mono fun t ht => by rw [hn, ht]; omega

section
variable {i : Instr} {m : MemOperand} {s : State} (hx : Executable i s) (ho : i.operand = .memory m)
include hx ho

theorem onTime_reads (hr : onlyReads i.mnemonic = true) : OnTime i s := by
  obtain ⟨f, he, hf⟩ := exec_reads ho hx hr
  refine onTime_of (cyclesOf_reads hx.1 ho s hr) ?_
  rw [he, dummyAddresses_reads ho hr]
  exact gated_readInstr m hf s

theorem onTime_stores (hr : onlyStores i.mnemonic = true) : OnTime i s := by
  obtain ⟨v, he⟩ := exec_stores ho hx hr
  refine onTime_of (cyclesOf_stores hx.1 ho s hr) ?_
  rw [he, dummyAddresses_stores ho hr]
  refine (gated_storeInstr m v s).mono ?_
  rintro t ⟨u, -, hcycle, rfl⟩
  rw [advance_cycle, write_cycle, hcycle, Nat.add_assoc]

theorem onTime_modifies (hr : onlyModifies i.mnemonic = true) : OnTime i s := by
  obtain ⟨f, g, he, hg⟩ := exec_modifies ho hx hr
  refine onTime_of (cyclesOf_modifies hx.1 ho s hr) ?_
  rw [he, dummyAddresses_modifies ho hr]
  refine (gated_modifyInstr m f g s).mono ?_
  rintro t ⟨v, r, u, -, -, -, hcycle, rfl⟩
  rw [advance_cycle, hg]
  show u.cycle + 1 = _
  rw [hcycle]; omega

end

theorem onTime_relative {i : Instr} {b : Byte} (h : i.listed = true) (ho : i.operand = .relative b) (s : State) :
    OnTime i s := by
  refine onTime_of (cyclesOf_relative h ho s) ?_
  rw [exec_relative ho, dummyAddresses_relative ho]
  exact (gated_branch _ b s).mono fun t ht => ht.2

/-- An instruction without an operand, from its dummy accesses and its cycles. -/
theorem onTime_implied {i : Instr} {s : State} {l : List Addr} (h : i.listed = true)
    (ho : i.operand = .implied ∨ i.operand = .accumulator) (hl : dummyAddresses i s = l)
    (hg : GatedResult s l (exec i s) fun t => t.cycle = s.cycle + impliedCycles i.mnemonic) : OnTime i s :=
  onTime_of (cyclesOf_implied h ho s) (hl ▸ hg)

theorem exec_onTime {i : Instr} {s : State} (hx : Executable i s) : OnTime i s := by
  cases hn : i.mnemonic
  case lda | ldx | ldy | adc | sbc | and | ora | eor | cmp | cpx | cpy | bit | lax =>
    obtain ⟨m, ho⟩ := operand_memory (i := i) (by rw [hn]; rfl)
    exact onTime_reads hx ho (by rw [hn]; rfl)
  case anc | alr | arr | axs =>
    obtain ⟨b, ho⟩ := operand_immediate (i := i) (by rw [hn]; rfl)
    exact onTime_reads hx ho (by rw [hn]; rfl)
  case sta | stx | sty | sax =>
    obtain ⟨m, ho⟩ := operand_memory (i := i) (by rw [hn]; rfl)
    exact onTime_stores hx ho (by rw [hn]; rfl)
  case inc | dec | dcp | isc | rla | rra | slo | sre =>
    obtain ⟨m, ho⟩ := operand_memory (i := i) (by rw [hn]; rfl)
    exact onTime_modifies hx ho (by rw [hn]; rfl)
  case bpl | bmi | bvc | bvs | bcc | bcs | bne | beq =>
    obtain ⟨b, ho⟩ := operand_relative (i := i) (by rw [hn]; rfl)
    exact onTime_relative hx.1 ho s
  case asl | lsr | rol | ror =>
    rcases operand_memoryOrA (i := i) (by rw [hn]; rfl) with ho | ⟨m, ho⟩
    · refine onTime_implied hx.1 (.inr ho) (by rw [dummyAddresses, ho, hn]) ?_
      rw [exec_eq_meaning]
      simp only [meaning, hn, ho]
      exact gated_impliedInstr (n := 0) s fun _ => rfl
    · exact onTime_modifies hx ho (by rw [hn]; rfl)
  case jmp =>
    rcases operand_jmp hn with ⟨a, ho⟩ | ⟨a, ho⟩
    · refine onTime_of (cyclesOf_jmp hx.1 s hn ho) ?_
      rw [exec_eq_meaning, dummyAddresses, ho, hn]
      simp only [meaning, hn, ho]
      exact .next rfl
    · refine onTime_of (cyclesOf_jmpIndirect hx.1 s ho) ?_
      rw [exec_eq_meaning, dummyAddresses, ho]
      simp only [meaning, hn, ho]
      exact .next rfl
  case jsr =>
    obtain ⟨a, ho⟩ := operand_jsr hn
    refine onTime_of (cyclesOf_jsr hx.1 s hn ho) ?_
    rw [exec_eq_meaning, dummyAddresses, ho, hn]
    simp only [meaning, hn, ho]
    exact gated_opJsr a s
  case unlisted => exact absurd hn (mnemonic_ne_unlisted hx.1)
  all_goals have ho := operand_implied (i := i) (by rw [hn]; rfl)
  all_goals refine onTime_implied hx.1 (.inl ho) (by rw [dummyAddresses, ho, hn]) ?_
  all_goals
    rw [exec_eq_meaning]
    simp only [meaning, hn]
  case tax | tay | tsx | txa | txs | tya | inx | iny | dex | dey | clc | sec | cli | sei | clv | cld | sed | nop =>
    exact gated_impliedInstr (n := 0) s fun _ => rfl
  case pha | php => exact gated_impliedInstr (n := 1) s fun _ => rfl
  case pla | plp => exact gated_pullInstr s fun _ => rfl
  case rts => exact (gated_opRts s).mono fun t ⟨s1, _, hcycle, ht⟩ => ht ▸ hcycle
  case rti => exact (gated_opRti s).mono fun t ⟨s1, _, hcycle, ht⟩ => ht ▸ hcycle
  case brk =>
    refine (gated_opBrk s).mono ?_
    rintro t rfl
    obtain ⟨-, -, hcycle⟩ :=
      enterHandler_spec (s.pc + 2) true irqVector (afterRead (s.pc + 1) s) (by decide) (by decide)
    exact hcycle

/-- Settles O57: every shape of instruction has its dummy accesses and its cycles from the spec's tables. -/
theorem cycleCounts : Obligations.CycleCounts := fun _ _ hx => ⟨(exec_onTime hx).completes, (exec_onTime hx).faults⟩

end Sys2Proof.Machine

/-!
PROOFS. The OAM DMA stall and what devices see (70_reset_and_hazards.md R272, R275, R276): both follow the accesses of a store and of a
read-modify-write to the last write.
-/

namespace Sys2Proof.Machine

/-! ### The OAM DMA stall -/

/-- What an instruction leaves that wrote $4014 in its last cycle: the stall of that cycle's parity, PC past the instruction, and
memory changed in the cell of $4014 at most (70_reset_and_hazards.md R272). -/
def LeavesStall (i : Instr) (s t : State) : Prop :=
  t.dmaStall = (if (t.cycle - 1) % 2 = 1 then 513 else 514) ∧ t.pc = s.pc + BitVec.ofNat 16 i.length ∧
    OnlyCellChanges 0x4014 s t ∧ (onlyStores i.mnemonic = true → SameButStore s t)

theorem not_onlyStores_of_onlyModifies {k : Mnemonic} (h : onlyModifies k = true) : onlyStores k = false := by
  cases k
  case inc | dec | asl | lsr | rol | ror | dcp | isc | rla | rra | slo | sre => rfl
  all_goals cases h

theorem write_4014_dmaStall (v : Byte) (s : State) :
    (write 0x4014 v s).dmaStall = if ((write 0x4014 v s).cycle - 1) % 2 = 1 then 513 else 514 := by
  rw [write_dmaStall, if_pos rfl, write_cycle, Nat.add_sub_cancel]

section
variable {i : Instr} {m : MemOperand} {s : State} (hx : Executable i s) (ho : i.operand = .memory m)
  (hs : NoDummyStops i s) (hea : effective m s = 0x4014)
include hx ho hs hea

theorem stores_leavesStall (hr : onlyStores i.mnemonic = true) : ∃ t, exec i s = .next t ∧ LeavesStall i s t := by
  obtain ⟨v, he⟩ := exec_stores ho hx hr
  rw [NoDummyStops, dummyAddresses_stores ho hr] at hs
  obtain ⟨t, ht, u, hbus, -, rfl⟩ := (gated_storeInstr m v s).completes hs
  rw [hea] at ht
  refine ⟨_, he.trans ht, write_4014_dmaStall (v u) u, ?pc, fun b hb => ?cells, fun _ => ?frame⟩
  case pc => rw [advance_pc, write_pc, hbus.pc, Instr.length, ho]; rfl
  case cells => exact (onlyCellChanges_write 0x4014 (v u) u b hb).trans (hbus.byteAt b)
  case frame => rw [hbus]; rfl

/-- Of the two writes of a read-modify-write the second decides: it triggers the stall again, whatever the first did. -/
theorem modifies_leavesStall (hr : onlyModifies i.mnemonic = true) : ∃ t, exec i s = .next t ∧ LeavesStall i s t := by
  obtain ⟨f, g, he, hg⟩ := exec_modifies ho hx hr
  rw [NoDummyStops, dummyAddresses_modifies ho hr] at hs
  obtain ⟨t, ht, v, r, u, -, hpc, hcells, -, rfl⟩ := (gated_modifyInstr m f g s).completes hs
  rw [hea] at ht hcells
  rw [hg] at ht
  refine ⟨_, he.trans ht, write_4014_dmaStall r u, ?pc, fun b hb => ?cells, fun hstores => ?frame⟩
  case pc => rw [advance_pc, Instr.length, ho, ← hpc]; rfl
  case cells => exact (onlyCellChanges_write 0x4014 r u b hb).trans (hcells b hb)
  case frame =>
    rw [not_onlyStores_of_onlyModifies hr] at hstores
    cases hstores

end

/-- Settles O59: the stall is that of the instruction's last cycle, which `CycleCounts` gives, and the step serves it. -/
theorem oamDmaStall : Obligations.OamDmaStall := by
  refine ⟨write_dmaStall, fun i m s ho hmem hrun hx hs hea => ?_⟩
  have hshape : onlyStores i.mnemonic = true ∨ onlyModifies i.mnemonic = true := by
    obtain h | h := List.mem_append.1 (show i.mnemonic ∈ [.sta, .stx, .sty, .sax] ++ _ from hmem)
    · exact .inl (List.contains_iff_mem.2 h)
    · exact .inr (List.contains_iff_mem.2 h)
  have hx' : Executable i (fetched i s) :=
    ⟨hx.1, fun h => (congrArg Platform.admitUndocumented (sampleLines_cfg s)).trans (hx.2 h)⟩
  obtain ⟨t, ht, hstall, hpc, hcells, hframe⟩ :=
    hshape.elim (stores_leavesStall hx' ho hs hea) (modifies_leavesStall hx' ho hs hea)
  obtain ⟨t', ht', hcycle⟩ := (exec_onTime hx').completes hs
  obtain rfl : t = t' := by rw [ht] at ht'; cases ht'; rfl
  obtain ⟨w, hw, hserved, -⟩ := pollAfterInstruction i s t hrun ht
  have htime : t.cycle = s.cycle + cyclesOf i (fetched i s) := by
    have hfetched : (fetched i s).cycle = s.cycle + fetchLength i := rfl
    omega
  refine ⟨t, w, ht, hw, ?cycle, ?served, ?pc, fun b hb => ?cells, fun hstores => ?frame⟩
  case cycle => rw [hserved, hstall, htime]
  case served => rw [hserved]
  case pc => rw [hserved]; exact hpc.trans (by simp [fetched])
  case cells =>
    rw [hserved]
    exact (hcells b hb).trans (byteAt_sampleLines s b)
  case frame =>
    rw [hserved, hframe (List.contains_iff_mem.2 hstores)]
    rfl

/-! ### What devices see -/

/-- STA Absolute,X, from the state in which it writes. -/
theorem exec_staAbsX {a : Addr} {s u : State} (h : dummyRead (uncorrected a s.x) s = .ok u) :
    exec (.staAbsX a) s = .next (advance 3 (write (a + zext s.x) u.a u)) := by
  have hea : address true (.absX a) s = .ok (a + zext s.x, u) := by
    simp only [address, indexed, Bool.true_or, if_true, h]
  rw [exec_sta (m := .absX a) rfl s rfl, storeInstr, hea]
  rfl

/-- INC Absolute, from the state in which it writes the new byte. -/
theorem exec_incAbs {a : Addr} {s u : State} (h : dummyWrite a (readValue a s) (afterRead a s) = .ok u) :
    exec (.incAbs a) s = .next (advance 3 (setNZ (readValue a s + 1) (write a (readValue a s + 1) u))) := by
  have hwrite : dummyWrite a (read a s).1 (read a s).2 = .ok u := h
  rw [exec_inc (m := .abs a) rfl s rfl, modifyInstr]
  simp only [address, bind, Except.bind, hwrite]
  rfl

/-- Settles O60: the accesses in order, each recorded where a device answers; a refused one is the fault of `CycleCounts`. -/
theorem deviceAccesses : Obligations.DeviceAccesses := by
  intro s a
  refine ⟨fun hp hunc hdev => ?staEmit, fun hp he => ?staRefused, fun hp hdev => ?incEmit, fun hp hdev he => ?incLeftOut,
    fun hp he => ?incRefused⟩
  case staEmit =>
    refine ⟨_, exec_staAbsX (dummyRead_emit hp), ?_⟩
    have hdev' : isDevice (afterRead (uncorrected a s.x) s) (a + zext s.x) = true := hdev
    rw [advance_busLog, write_busLog, if_pos hdev', afterRead_busLog, if_pos hunc]
    rfl
  case staRefused => exact (exec_onTime (i := .staAbsX a) ⟨rfl, nofun⟩).faults _ hp (List.find?_cons_of_pos he)
  case incEmit =>
    refine ⟨_, exec_incAbs (dummyWrite_emit hp), ?_⟩
    have hread : isDevice (afterRead a s) a = true := hdev
    rw [advance_busLog, setNZ_busLog, write_busLog, isDevice_write, if_pos hread, write_busLog, if_pos hread,
      afterRead_busLog, if_pos hdev, readValue_device hdev]
  case incLeftOut =>
    refine ⟨_, exec_incAbs (dummyWrite_left_out hp he), ?_⟩
    have hread : isDevice (tick (afterRead a s)) a = true := hdev
    rw [advance_busLog, setNZ_busLog, write_busLog, if_pos hread, tick_busLog, afterRead_busLog, if_pos hdev,
      readValue_device hdev]
  case incRefused => exact (exec_onTime (i := .incAbs a) ⟨rfl, nofun⟩).faults _ hp (List.find?_cons_of_pos he)

end Sys2Proof.Machine
